-- ==== Sys2Proof/Word.lean ====
section
/-! DEFINITION. The word types of the block and its plainest arithmetic (00_scope.md R6, R8, R9). -/

namespace Sys2Proof

/-- A byte as it goes over the wire (00_scope.md R6, XFER_BYTES). -/
abbrev Byte := BitVec 8

/-- A register or configuration word, WORD = 16 bits (00_scope.md R6). -/
abbrev Word := BitVec 16

/-- A RegisterAddress, ADDR_W = 8 bits (00_scope.md R6, R15). -/
abbrev RegAddr := BitVec 8

/-- A command word as the host hands it over (30_encoding.md R60). -/
abbrev Command := BitVec 32

/-- A binary64 number, held as its bit pattern (00_scope.md R10, 10_state.md R21). -/
abbrev F64 := BitVec 64

end Sys2Proof
end

