-- ==== Sys2Proof/Config.lean ====
section
/-! DEFINITION. What a launch fixes (00_scope.md R7), the shape of the transport's calls and answers
(20_memory.md R49, R50), and the free values: what the spec leaves open has no body here. -/

namespace Sys2Proof.Config

/-- The launch parameter SHUNT_BANK (00_scope.md R7, 41_address.md R92). -/
inductive ShuntBank where
  /-- The shunt registers of the register map, base 0x01. -/
  | corrected
  /-- The original driver's addresses, those of the bus registers. -/
  | legacy
deriving DecidableEq, Repr

/-- The launch parameter BUS_ID: opaque to the block, passed to `open` unchanged (00_scope.md R7, D35).
DESIGN CHOICE (entry 5): numbered by a natural number, since its format is open. Safe. -/
abbrev BusId := Nat

/-- The launch parameters of 00_scope.md R7 other than TRANSPORT. DEVICE_ADDR is a natural number, so that
a launch out of the 7-bit range can be written down and refused (70_reset_and_hazards.md R161). -/
structure Params where
  deviceAddr : Nat
  busId : BusId
  shuntR : F64
  shuntBank : ShuntBank
deriving DecidableEq, Repr

/-- The answer to an `open` or a `writeBlock` (20_memory.md R49). -/
inductive Ack where
  | ok
  | fail
deriving DecidableEq, Repr, Inhabited

/-- The answer to a `readBlock`: a failure, or bytes of any number and any values (20_memory.md R49). -/
inductive ReadAnswer where
  | fail
  | bytes (bs : List Byte)
deriving DecidableEq, Repr

/-- A call of the transport with its arguments (20_memory.md R49, R50). -/
inductive TransportCall where
  | openBus (bus : BusId)
  | writeBlock (device : Nat) (addr : RegAddr) (count : Nat) (bytes : List Byte)
  | readBlock (device : Nat) (addr : RegAddr) (count : Nat)
deriving DecidableEq, Repr

/-- One draw of the oracle: all it needs to answer one call, whichever call it is. An `open` or a
`writeBlock` is answered by `ack`; a `readBlock` fails where `ack` is `fail` and else answers `bytes`.
Every answer of 20_memory.md R49 to every call is some draw's (entry 4). -/
structure Draw where
  ack : Ack
  bytes : List Byte
deriving DecidableEq, Repr, Inhabited

/-- FREE VALUE (entry 3): the oracle's answer to a call for which State lists no draw, by the call's number
(counting from 1) and the call itself. 20_memory.md R49 constrains the answers in no way, so nothing in
the model can know this value. Safe. -/
opaque freeDraw : Nat → TransportCall → Draw

/-- FREE VALUE (entry 9): the pattern of the NaN that an invalid binary64 operation yields, by its two
operands. No launched machine reaches it (70_reset_and_hazards.md R161). Safe. -/
opaque nanResult : F64 → F64 → F64

end Sys2Proof.Config
end

