-- ==== Sys2Proof/Syntax.lean ====
section
/-! DEFINITION. The commands: one constructor of `Instr` per row of the opcode map (30_encoding.md R63), with
the operands of R65 and R66. -/

namespace Sys2Proof

/-- The options of `configure`, as the options vector carries them (30_encoding.md R66). The widths are the
options' ranges, so no option can be out of range (90_conflicts.md C3). -/
structure CfgOptions where
  /-- resetRequested -/
  reset : Bool
  /-- 1 is in enableChannels -/
  ch1 : Bool
  /-- 2 is in enableChannels -/
  ch2 : Bool
  /-- 3 is in enableChannels -/
  ch3 : Bool
  /-- averagingLevel -/
  avg : BitVec 3
  /-- busConversionTime -/
  busCt : BitVec 3
  /-- shuntConversionTime -/
  shuntCt : BitVec 3
  /-- mode -/
  mode : BitVec 3
deriving DecidableEq, Repr

/-- The commands of the block. A channel operand is an integer of which 1, 2 and 3 are valid (00_scope.md R16);
the command word carries 0 to 15 (`Instr.wellFormed`). -/
inductive Instr where
  /-- INIT: open the transport and write the default configuration (40_config_word.md R83). -/
  | init
  /-- CFG: build a configuration word (40_config_word.md R80). -/
  | cfg (o : CfgOptions)
  /-- BUSADDR: a channel's bus-voltage register address (41_address.md R93). -/
  | busaddr (ch : Nat)
  /-- SHUNTADDR: the address SHUNTRAW and CURMA read for a channel (41_address.md R94). -/
  | shuntaddr (ch : Nat)
  /-- WRREG: write a device register (42_register_io.md R104). -/
  | wrreg (addr : RegAddr) (data : Word)
  /-- RDREG: read a device register (42_register_io.md R105). -/
  | rdreg (addr : RegAddr)
  /-- ENC16: the write encoder alone (42_register_io.md R106). -/
  | enc16 (data : Word)
  /-- DEC16: the read decoder alone, on `b0` (first on the wire) and `b1` (42_register_io.md R107). -/
  | dec16 (b0 b1 : Byte)
  /-- BUSRAW: a channel's bus voltage in millivolts (43_scaler.md R122). -/
  | busraw (ch : Nat)
  /-- SHUNTRAW: a channel's shunt voltage in raw units (43_scaler.md R123). -/
  | shuntraw (ch : Nat)
  /-- SCALEBUS: the bus scaler alone (43_scaler.md R124). -/
  | scalebus (raw : Word)
  /-- BUSV: a channel's bus voltage as a binary64 (43_scaler.md R126). -/
  | busv (ch : Nat)
  /-- CURMA: a channel's current as a binary64 (43_scaler.md R128). -/
  | curma (ch : Nat)
deriving DecidableEq, Repr

end Sys2Proof
end

