-- ==== Sys2Proof/Machine/State.lean ====
section
/-! DEFINITION. The block's state as plain data (10_state.md R21 to R30, R37), with what a run of it takes: the
launch parameters, the transport and the host's program (00_scope.md R7, 20_memory.md R49, R51, 10_state.md R29). -/

namespace Sys2Proof.Machine

open Sys2Proof.Config

/-- Why the machine stops with a fault (60_exceptions.md R145). A command that faults sets FAULT in its next
state, and every later step answers that fault (entry 1). -/
inductive Fault where
  /-- F_NO_HANDLE: raised by WRREG, RDREG, BUSRAW, SHUNTRAW, BUSV and CURMA while no handle is open. Safe: the
  source gives such a call no meaning. -/
  | noHandle
  /-- F_UNCONFIGURED: raised by RDREG, BUSRAW, SHUNTRAW, BUSV and CURMA while the device is Unconfigured. Safe:
  the legacy codec would return some value. -/
  | unconfigured
  /-- F_REINIT: raised by INIT while a handle is open. Safe: the source describes one initialization. -/
  | reinit
  /-- F_MOCK_UNWRITTEN: raised by a read of an address for which the mock transport holds no value; never with
  the oracle. Safe: the mock invents no value. -/
  | mockUnwritten
deriving DecidableEq, Repr

/-- Why a step is refused: the model makes no claim there. -/
inductive Refusal where
  /-- Raised by an arm of `exec` whose instruction has no meaning in the model. Safe. No arm raises it. -/
  | notModelled (mnemonic : String)
  /-- Raised by `step` where the launch parameters break a stated range (70_reset_and_hazards.md R161). Safe. -/
  | launchRefused
  /-- Raised by `step` where the program has no command at `pc`: the run is over (70_reset_and_hazards.md R170).
  Safe: the host issues nothing (entry 2). -/
  | programEnded
deriving DecidableEq, Repr

/-- The values of OUT, the result register (10_state.md R21). -/
inductive Out where
  | none
  | unit
  | w16 (w : Word)
  | a8 (a : RegAddr)
  /-- Two bytes, `b0` first on the wire. -/
  | b2 (b0 b1 : Byte)
  | i (n : Int)
  /-- A binary64, by its pattern. -/
  | f64 (x : F64)
deriving DecidableEq, Repr

/-- The error kinds (60_exceptions.md R140). -/
inductive ErrKind where
  | openError
  | transportError
  | protocolError
  | preconditionError
deriving DecidableEq, Repr

/-- The values of ERRINFO (10_state.md R23). -/
inductive ErrInfo where
  | none
  | openFailed
  | writeFailed
  | readFailed
  /-- A read was answered with `k < 2` bytes. -/
  | shortRead (k : Nat)
  /-- A read was answered with `k > 2` bytes. -/
  | longRead (k : Nat)
  /-- The channel operand was `c`, outside 1..3. -/
  | badChannel (c : Nat)
  | illegalCommand
deriving DecidableEq, Repr

/-- The device's logical state (10_state.md R25). -/
inductive CfgState where
  | unconfigured
  | configured
deriving DecidableEq, Repr

/-- An entry of LOG: a transport call with its arguments and its answer (10_state.md R30). -/
inductive LogEntry where
  | openBus (bus : BusId) (answer : Ack)
  | write (device : Nat) (addr : RegAddr) (count : Nat) (bytes : List Byte) (answer : Ack)
  | read (device : Nat) (addr : RegAddr) (count : Nat) (answer : ReadAnswer)
deriving DecidableEq, Repr

/-- A store of 16-bit words by register address: a partial map, as a list in one canonical form
(`Memory.wf`). An address names a whole register, not a byte (20_memory.md R40), so a cell holds a word
(entry 7). An unlisted address holds no value. -/
abbrev Memory := List (Nat × Word)

/-- The mock transport (20_memory.md R51): its map, and the answers that the test states, by the number of the
call, counting from 1 (95_test_vectors.md, P3). -/
structure Mock where
  /-- The partial map M. -/
  regs : Memory
  /-- The calls that are answered `fail`. -/
  fails : List Nat
  /-- The read calls that are answered with a byte list of the test's. -/
  readBytes : List (Nat × List Byte)
deriving DecidableEq, Repr

/-- The launch parameter TRANSPORT (00_scope.md R7). -/
inductive Transport where
  /-- The free oracle of 20_memory.md R49: the draws it will answer with, one per call, the next one first; past
  the last of them every draw is a free value (entry 3). -/
  | oracle (draws : List Draw)
  /-- The reference oracle of the test vectors (20_memory.md R51). -/
  | mock (m : Mock)
deriving DecidableEq, Repr

/-- The machine's state. -/
structure State where
  /-- The launch parameters; no step changes them (00_scope.md R7). -/
  params : Params
  /-- The commands the host issues; no step changes them (10_state.md R29, 20_memory.md R55). -/
  program : List Command
  /-- OUT (10_state.md R21). -/
  out : Out
  /-- ERR (10_state.md R22). -/
  err : BitVec 3
  /-- ERRINFO (10_state.md R23). -/
  errinfo : ErrInfo
  /-- pc, the host's command index (10_state.md R29). -/
  pc : Nat
  /-- handle_open (10_state.md R24). -/
  handleOpen : Bool
  /-- cfg_state (10_state.md R25). -/
  cfgState : CfgState
  /-- FAULT (10_state.md R28). -/
  fault : Option Fault
  /-- LOG, the oldest call first (10_state.md R30). -/
  log : List LogEntry
  /-- The transport that answers the calls (20_memory.md R49, R51). -/
  transport : Transport
  /-- The MODEL's own field: how many calls were answered. It numbers the draws and the mock's stated answers
  (entry 13). -/
  calls : Nat
deriving DecidableEq, Repr

/-- The parameters of a launch with the spec's defaults (00_scope.md R7, 70_reset_and_hazards.md R161). BUS_ID has
no default: DESIGN CHOICE 0 (entry 5), unsafe. -/
def defaultParams : Params where
  deviceAddr := 0x40
  busId := 0
  shuntR := 0x3FB999999999999A
  shuntBank := .corrected

/-- The launch state (10_state.md R37, 70_reset_and_hazards.md R160) with the default parameters. The program is
empty (entry 2), and the transport is the oracle with every answer free (entry 3). -/
def State.reset : State where
  params := defaultParams
  program := []
  out := .none
  err := 0
  errinfo := .none
  pc := 0
  handleOpen := false
  cfgState := .unconfigured
  fault := none
  log := []
  transport := .oracle []
  calls := 0

end Sys2Proof.Machine
end

