-- ==== Sys2Proof/Machine/Flags.lean ====
section
/-! DEFINITION. The block has no status flags or condition codes (10_state.md R35). What it has in their place is
the error code ERR: this file holds every computation of it (10_state.md R22, R23). -/

namespace Sys2Proof.Machine

/-- The code of an error kind (10_state.md R22). -/
def errCode : ErrKind → BitVec 3
  | .openError => 1
  | .transportError => 2
  | .protocolError => 3
  | .preconditionError => 4

/-- The kind of error that records a diagnostic; none for NONE (10_state.md R23). -/
def errKindOfInfo : ErrInfo → Option ErrKind
  | .none => none
  | .openFailed => some .openError
  | .writeFailed => some .transportError
  | .readFailed => some .transportError
  | .shortRead _ => some .protocolError
  | .longRead _ => some .protocolError
  | .badChannel _ => some .preconditionError
  | .illegalCommand => some .preconditionError

/-- The code ERR holds beside a diagnostic (10_state.md R22, R23). -/
def errOfInfo (info : ErrInfo) : BitVec 3 :=
  match errKindOfInfo info with
  | none => 0
  | some k => errCode k

end Sys2Proof.Machine
end

