-- ==== Sys2Proof/WellFormed.lean ====
section
/-! DEFINITION. Which commands a command word can carry. The types of the other operands are as wide as their
fields (30_encoding.md R61); the channel operand is an integer, and its field is 4 bits wide. -/

namespace Sys2Proof

/-- The channel fits the 4-bit field `ch` (30_encoding.md R61, R67: c in 0..15). -/
def chFits (ch : Nat) : Bool := decide (ch < 16)

/-- The command has a command word. -/
def Instr.wellFormed : Instr → Bool
  | .init => true
  | .cfg _ => true
  | .busaddr ch => chFits ch
  | .shuntaddr ch => chFits ch
  | .wrreg _ _ => true
  | .rdreg _ => true
  | .enc16 _ => true
  | .dec16 _ _ => true
  | .busraw ch => chFits ch
  | .shuntraw ch => chFits ch
  | .scalebus _ => true
  | .busv ch => chFits ch
  | .curma ch => chFits ch

end Sys2Proof
end

