-- ==== Sys2Proof/Decode.lean ====
section
/-! DEFINITION. The decoder of command words (30_encoding.md R61 to R66, R70), total and refusing an illegal
word by name, and after it the encoder, written from the same table. -/

namespace Sys2Proof

/-! ### The opcode map -/

/-- The operation codes that R63 assigns. -/
inductive Op where
  | init | cfg | busaddr | shuntaddr | wrreg | rdreg | enc16 | dec16 | busraw | shuntraw | scalebus | busv | curma
deriving DecidableEq, Repr

/-- The row of the opcode map that an operation code selects; none for 0x0, 0xE and 0xF (30_encoding.md R63, R64). -/
def opOfCode (code : BitVec 4) : Option Op :=
  match code.toNat with
  | 0x1 => some .init
  | 0x2 => some .cfg
  | 0x3 => some .busaddr
  | 0x4 => some .shuntaddr
  | 0x5 => some .wrreg
  | 0x6 => some .rdreg
  | 0x7 => some .enc16
  | 0x8 => some .dec16
  | 0x9 => some .busraw
  | 0xA => some .shuntraw
  | 0xB => some .scalebus
  | 0xC => some .busv
  | 0xD => some .curma
  | _ => none

/-- A row's operation code (30_encoding.md R63). -/
def opCode : Op → BitVec 4
  | .init => 0x1
  | .cfg => 0x2
  | .busaddr => 0x3
  | .shuntaddr => 0x4
  | .wrreg => 0x5
  | .rdreg => 0x6
  | .enc16 => 0x7
  | .dec16 => 0x8
  | .busraw => 0x9
  | .shuntraw => 0xA
  | .scalebus => 0xB
  | .busv => 0xC
  | .curma => 0xD

/-- A row's `match` column (30_encoding.md R63). -/
def opMatch : Op → Command
  | .init => 0x10000000
  | .cfg => 0x20000000
  | .busaddr => 0x30000000
  | .shuntaddr => 0x40000000
  | .wrreg => 0x50000000
  | .rdreg => 0x60000000
  | .enc16 => 0x70000000
  | .dec16 => 0x80000000
  | .busraw => 0x90000000
  | .shuntraw => 0xA0000000
  | .scalebus => 0xB0000000
  | .busv => 0xC0000000
  | .curma => 0xD0000000

/-- A row's `mask` column: op and every field its format reserves (30_encoding.md R62, R63). -/
def opMask : Op → Command
  | .init => 0xFFFFFFFF
  | .cfg => 0xFFFF0000
  | .busaddr => 0xF0FFFFFF
  | .shuntaddr => 0xF0FFFFFF
  | .wrreg => 0xFF000000
  | .rdreg => 0xFF00FFFF
  | .enc16 => 0xFFFF0000
  | .dec16 => 0xFFFF0000
  | .busraw => 0xF0FFFFFF
  | .shuntraw => 0xF0FFFFFF
  | .scalebus => 0xFFFF0000
  | .busv => 0xF0FFFFFF
  | .curma => 0xF0FFFFFF

/-! ### Fields and operands -/

/-- The field `op`, cmd[31:28] (30_encoding.md R61). -/
def opField (w : Command) : BitVec 4 := w.extractLsb' 28 4

/-- The field `ch`, cmd[27:24] (30_encoding.md R61). -/
def chField (w : Command) : BitVec 4 := w.extractLsb' 24 4

/-- The field `addr`, cmd[23:16] (30_encoding.md R61). -/
def addrField (w : Command) : RegAddr := w.extractLsb' 16 8

/-- The field `data`, cmd[15:0] (30_encoding.md R61). -/
def dataField (w : Command) : Word := w.extractLsb' 0 16

/-- The options that a CFG options vector carries (30_encoding.md R66). -/
def optionsOfVector (o : Word) : CfgOptions where
  reset := o.getLsbD 0
  ch1 := o.getLsbD 1
  ch2 := o.getLsbD 2
  ch3 := o.getLsbD 3
  avg := o.extractLsb' 4 3
  busCt := o.extractLsb' 7 3
  shuntCt := o.extractLsb' 10 3
  mode := o.extractLsb' 13 3

/-- A byte pair's first byte on the wire, `v[15:8]` (30_encoding.md R65, 20_memory.md R43). -/
def hiByte (v : Word) : Byte := v.extractLsb' 8 8

/-- A byte pair's second byte on the wire, `v[7:0]` (30_encoding.md R65, 20_memory.md R43). -/
def loByte (v : Word) : Byte := v.extractLsb' 0 8

/-- The command of a row with the operands of R65, each read as that command's rule says. -/
def operandsOf (op : Op) (w : Command) : Instr :=
  match op with
  | .init => .init
  | .cfg => .cfg (optionsOfVector (dataField w))
  | .busaddr => .busaddr (chField w).toNat
  | .shuntaddr => .shuntaddr (chField w).toNat
  | .wrreg => .wrreg (addrField w) (dataField w)
  | .rdreg => .rdreg (addrField w)
  | .enc16 => .enc16 (dataField w)
  | .dec16 => .dec16 (hiByte (dataField w)) (loByte (dataField w))
  | .busraw => .busraw (chField w).toNat
  | .shuntraw => .shuntraw (chField w).toNat
  | .scalebus => .scalebus (dataField w)
  | .busv => .busv (chField w).toNat
  | .curma => .curma (chField w).toNat

/-! ### The decoder -/

/-- Why a command word is illegal (30_encoding.md R64). -/
inductive Illegal where
  /-- op is 0x0, 0xE or 0xF. -/
  | unassignedOp
  /-- A field reserved for the command's format is not zero. -/
  | reservedNotZero
deriving DecidableEq, Repr

/-- The decoding procedure of 30_encoding.md R70, in its three steps. -/
def decode (w : Command) : Except Illegal Instr :=
  match opOfCode (opField w) with
  | none => .error .unassignedOp
  | some op => if w &&& opMask op = opMatch op then .ok (operandsOf op w) else .error .reservedNotZero

/-- The instruction the decoder reads from a word of `nbits` bits whose higher bits are zero. A command is one
32-bit word (30_encoding.md R60), handed over whole, so no byte order arises; a longer word is no command. -/
def decodeTableWord (nbits w : Nat) : Option Instr :=
  if nbits ≤ 32 then
    match decode (BitVec.ofNat 32 (w % 2 ^ nbits)) with
    | .ok i => some i
    | .error _ => none
  else none

/-! ### The encoder -/

/-- The row of a command. -/
def rowOf : Instr → Op
  | .init => .init
  | .cfg _ => .cfg
  | .busaddr _ => .busaddr
  | .shuntaddr _ => .shuntaddr
  | .wrreg _ _ => .wrreg
  | .rdreg _ => .rdreg
  | .enc16 _ => .enc16
  | .dec16 _ _ => .dec16
  | .busraw _ => .busraw
  | .shuntraw _ => .shuntraw
  | .scalebus _ => .scalebus
  | .busv _ => .busv
  | .curma _ => .curma

/-- A command word from its four fields, each shifted to its place (30_encoding.md R61, R67). -/
def commandWord (op : Op) (ch : BitVec 4) (addr : RegAddr) (data : Word) : Command :=
  ((opCode op).setWidth 32 <<< 28) ||| (ch.setWidth 32 <<< 24) ||| (addr.setWidth 32 <<< 16) ||| data.setWidth 32

/-- The options vector of a set of options (30_encoding.md R66, R68). -/
def vectorOfOptions (o : CfgOptions) : Word :=
  (BitVec.ofBool o.reset).setWidth 16 ||| ((BitVec.ofBool o.ch1).setWidth 16 <<< 1)
    ||| ((BitVec.ofBool o.ch2).setWidth 16 <<< 2) ||| ((BitVec.ofBool o.ch3).setWidth 16 <<< 3)
    ||| (o.avg.setWidth 16 <<< 4) ||| (o.busCt.setWidth 16 <<< 7) ||| (o.shuntCt.setWidth 16 <<< 10)
    ||| (o.mode.setWidth 16 <<< 13)

/-- The channel field of a channel that fits it. -/
def chBits (ch : Nat) : BitVec 4 := BitVec.ofNat 4 ch

/-- The command word of a command, every reserved field zero (30_encoding.md R61, R62, R67). -/
def encode : Instr → Command
  | .init => commandWord .init 0 0 0
  | .cfg o => commandWord .cfg 0 0 (vectorOfOptions o)
  | .busaddr ch => commandWord .busaddr (chBits ch) 0 0
  | .shuntaddr ch => commandWord .shuntaddr (chBits ch) 0 0
  | .wrreg addr data => commandWord .wrreg 0 addr data
  | .rdreg addr => commandWord .rdreg 0 addr 0
  | .enc16 data => commandWord .enc16 0 0 data
  | .dec16 b0 b1 => commandWord .dec16 0 0 (b0 ++ b1)
  | .busraw ch => commandWord .busraw (chBits ch) 0 0
  | .shuntraw ch => commandWord .shuntraw (chBits ch) 0 0
  | .scalebus raw => commandWord .scalebus 0 0 raw
  | .busv ch => commandWord .busv (chBits ch) 0 0
  | .curma ch => commandWord .curma (chBits ch) 0 0

end Sys2Proof
end

