-- ==== Sys2Proof/Machine/Float64.lean ====
section
/-! DEFINITION. IEEE 754 binary64 on bit patterns: exact integers, and the correctly rounded product and quotient
with round to nearest, ties to even (00_scope.md R10, 93_implementation_defined.md G1). PRESUMED (entry 9): the
format's definition is not in the source; the spec takes it from general knowledge. -/

namespace Sys2Proof.Machine

open Sys2Proof.Config

/-! ### The parts of a pattern -/

/-- The sign bit, 63. -/
def f64Neg (p : F64) : Bool := p.getLsbD 63

/-- The biased exponent, bits 62:52. -/
def f64Expo (p : F64) : Nat := (p.extractLsb' 52 11).toNat

/-- The fraction, bits 51:0. -/
def f64Frac (p : F64) : Nat := (p.extractLsb' 0 52).toNat

/-- The pattern is a NaN's. -/
def f64IsNan (p : F64) : Bool := f64Expo p == 2047 && f64Frac p != 0

/-- The pattern is an infinity's. -/
def f64IsInf (p : F64) : Bool := f64Expo p == 2047 && f64Frac p == 0

/-- The pattern is a finite number's. -/
def f64IsFinite (p : F64) : Bool := f64Expo p != 2047

/-- The significand of a finite number, as an integer. -/
def f64Mant (p : F64) : Nat := if f64Expo p = 0 then f64Frac p else 2 ^ 52 + f64Frac p

/-- The exponent of a finite number's last place: its magnitude is `f64Mant p * 2 ^ f64Scale p`. -/
def f64Scale (p : F64) : Int := if f64Expo p = 0 then -1074 else (f64Expo p : Int) - 1075

/-- The pattern with a given sign and its other bits. -/
def f64Pack (neg : Bool) (mag : Nat) : F64 := BitVec.ofNat 64 ((if neg then 2 ^ 63 else 0) + mag)

/-- The bits of infinity's magnitude. -/
def f64InfMag : Nat := 2047 * 2 ^ 52

/-! ### Rounding -/

/-- The integer nearest `n / d`, the even one of two that are equally near. -/
def roundHalfEven (n d : Nat) : Nat :=
  let q := n / d
  let r := n % d
  if 2 * r < d then q else if d < 2 * r then q + 1 else q + q % 2

/-- Is `2 ^ k` at most `n / d`? -/
def twoPowLe (k : Int) (n d : Nat) : Bool := decide (d * 2 ^ k.toNat ≤ n * 2 ^ (-k).toNat)

/-- The exponent of the greatest power of two at most `n / d`, for `n` and `d` above 0. -/
def floorLog2 (n d : Nat) : Int :=
  let k : Int := (Nat.log2 n : Int) - (Nat.log2 d : Int)
  if twoPowLe k n d then k else k - 1

/-- The exponent of the last place that a magnitude `n / d` is rounded at: 53 significant bits, or fewer where the
number is subnormal. -/
def roundScale (n d : Nat) : Int := max (floorLog2 n d - 52) (-1074)

/-- The binary64 nearest `n / d` with a given sign, for `d` above 0; ties go to the even significand, and a
magnitude that rounds past the greatest finite one becomes infinity. -/
def f64OfQuot (neg : Bool) (n d : Nat) : F64 :=
  if n = 0 then f64Pack neg 0
  else
    let e := roundScale n d
    let q := roundHalfEven (n * 2 ^ (-e).toNat) (d * 2 ^ e.toNat)
    let mag := (e + 1074).toNat * 2 ^ 52 + q
    f64Pack neg (if mag < f64InfMag then mag else f64InfMag)

/-! ### The operations of 00_scope.md R10 -/

/-- `f64(i)`: the binary64 of an integer; exact below 2^53, and 0 is +0. -/
def f64OfInt (i : Int) : F64 := f64OfQuot (decide (i < 0)) i.natAbs 1

/-- `f64mul(a, b)`: the correctly rounded product. -/
def f64Mul (a b : F64) : F64 :=
  let neg := f64Neg a != f64Neg b
  if f64IsNan a || f64IsNan b then nanResult a b
  else if f64IsInf a || f64IsInf b then
    if (f64IsFinite a && f64Mant a == 0) || (f64IsFinite b && f64Mant b == 0) then nanResult a b
    else f64Pack neg f64InfMag
  else
    let e := f64Scale a + f64Scale b
    f64OfQuot neg (f64Mant a * f64Mant b * 2 ^ e.toNat) (2 ^ (-e).toNat)

/-- `f64div(a, b)`: the correctly rounded quotient. -/
def f64Div (a b : F64) : F64 :=
  let neg := f64Neg a != f64Neg b
  if f64IsNan a || f64IsNan b then nanResult a b
  else if f64IsInf a then
    if f64IsInf b then nanResult a b else f64Pack neg f64InfMag
  else if f64IsInf b then f64Pack neg 0
  else if f64Mant b = 0 then
    if f64Mant a = 0 then nanResult a b else f64Pack neg f64InfMag
  else
    let e := f64Scale a - f64Scale b
    f64OfQuot neg (f64Mant a * 2 ^ e.toNat) (f64Mant b * 2 ^ (-e).toNat)

end Sys2Proof.Machine
end

