-- ==== Sys2Proof/Machine/Operands.lean ====
section
/-! DEFINITION. The block's constants (00_scope.md R6) and its pure functions: the byte codec, the channel check and
address calculator, the configuration word builder, and the scalers. Every operand of a command is an immediate
field of its word (10_state.md R20), so these are all the operand computations there are. -/

namespace Sys2Proof.Machine

open Sys2Proof.Config

/-! ### Constants (00_scope.md R6) -/

/-- CONFIG_ADDR (41_address.md R95). -/
def configAddr : RegAddr := 0x00

/-- SHUNTVOLTAGE_BASE. -/
def shuntVoltageBase : Int := 0x01

/-- BUSVOLTAGE_BASE. -/
def busVoltageBase : Int := 0x02

/-- CHANNEL_STRIDE. -/
def channelStride : Int := 2

/-- XFER_BYTES: the byte count of every transfer (20_memory.md R45). -/
def xferBytes : Nat := 2

/-- BUS_STATUS_BITS. -/
def busStatusBits : Nat := 3

/-- BUS_LSB_MV. -/
def busLsbMv : Int := 4

/-- MV_TO_V: the binary64 constant nearest 0.001. -/
def mvToV : F64 := 0x3F50624DD2F1A9FC

/-- DEFAULT_CONFIG (40_config_word.md R82, 90_conflicts.md C1). -/
def defaultConfig : Word := 0x73FF

/-! ### The byte codec (42_register_io.md R100, R101) -/

/-- `sext_16(v)` (00_scope.md R9). -/
def sext16 (v : Word) : Int := if v.getLsbD 15 then (v.toNat : Int) - 0x10000 else v.toNat

/-- `trunc_16(i)` (00_scope.md R9). -/
def trunc16 (i : Int) : Word := BitVec.ofInt 16 i

/-- `trunc_8(i)` (00_scope.md R9). -/
def trunc8 (i : Int) : RegAddr := BitVec.ofInt 8 i

/-- `enc16(v)`: the most-significant byte first (42_register_io.md R100, 20_memory.md R43). -/
def enc16 (v : Word) : Byte × Byte := (hiByte v, loByte v)

/-- The two bytes of a value as a transfer carries them, the first on the wire first (20_memory.md R43). -/
def wireBytes (v : Word) : List Byte := [(enc16 v).1, (enc16 v).2]

/-- `dec16(b0, b1)`: big-endian and signed (42_register_io.md R101, 20_memory.md R44). -/
def dec16 (b0 b1 : Byte) : Int := sext16 (b0 ++ b1)

/-! ### The address calculator (41_address.md R90 to R92) -/

/-- `valid_ch(c)` (41_address.md R90). -/
def validCh (c : Nat) : Bool := c == 1 || c == 2 || c == 3

/-- `bus_addr(c)`, for a valid channel (41_address.md R91). -/
def busAddr (c : Nat) : RegAddr := trunc8 (busVoltageBase + ((c : Int) - 1) * channelStride)

/-- `shunt_addr(c)`, for a valid channel, under a setting of SHUNT_BANK (41_address.md R92, 90_conflicts.md C2). -/
def shuntAddr (bank : ShuntBank) (c : Nat) : RegAddr :=
  match bank with
  | .corrected => trunc8 (shuntVoltageBase + ((c : Int) - 1) * channelStride)
  | .legacy => busAddr c

/-! ### The configuration word builder (40_config_word.md R80) -/

/-- A one-bit option, as a 16-bit field at bit 0. -/
def flagBit (b : Bool) : Word := (BitVec.ofBool b).setWidth 16

/-- `configure(options)`: the options, each shifted to its place in CONFIG and OR-ed (40_config_word.md R80,
10_state.md R31). -/
def configure (o : CfgOptions) : Word :=
  (flagBit o.reset <<< 15) ||| (flagBit o.ch1 <<< 14) ||| (flagBit o.ch2 <<< 13) ||| (flagBit o.ch3 <<< 12)
    ||| (o.avg.setWidth 16 <<< 9) ||| (o.busCt.setWidth 16 <<< 6) ||| (o.shuntCt.setWidth 16 <<< 3)
    ||| o.mode.setWidth 16

/-- The default options (40_config_word.md R82). -/
def defaultOptions : CfgOptions where
  reset := false
  ch1 := true
  ch2 := true
  ch3 := true
  avg := 1
  busCt := 7
  shuntCt := 7
  mode := 7

/-- RST, bit 15 of a CONFIG word (10_state.md R31). -/
def configRst (w : Word) : Bool := w.getLsbD 15

/-! ### The scalers (43_scaler.md R120, R125, R127, R130) -/

/-- `i >>s k`: rounds toward minus infinity (00_scope.md R9). -/
def asr (i : Int) (k : Nat) : Int := i.fdiv (2 ^ k)

/-- `bus_scale(V)`, in millivolts (43_scaler.md R120). -/
def busScale (v : Int) : Int := asr v busStatusBits * busLsbMv

/-- `shunt_xform(S)`: the raw sample unchanged, under both banks (43_scaler.md R130). -/
def shuntXform (s : Int) : Int := s

/-- `bus_V(m)`: one rounded product by the constant (43_scaler.md R125). -/
def busVolts (m : Int) : F64 := f64Mul (f64OfInt m) mvToV

/-- `current(s)`: one rounded quotient by SHUNT_R (43_scaler.md R127). -/
def current (shuntR : F64) (s : Int) : F64 := f64Div (f64OfInt s) shuntR

/-! ### The launch constraints (70_reset_and_hazards.md R161) -/

/-- The pattern of 2^-1000, the least legal SHUNT_R. -/
def shuntRMin : F64 := 0x0170000000000000

/-- SHUNT_R is finite and at least 2^-1000: among the patterns without a sign bit, the order of the numbers is the
order of the patterns, and infinity stands above every finite number. -/
def shuntROk (r : F64) : Bool := f64IsFinite r && !f64Neg r && decide (shuntRMin.toNat ≤ r.toNat)

/-- DEVICE_ADDR is 7 bits wide. -/
def deviceAddrOk (a : Nat) : Bool := decide (a ≤ 0x7F)

/-- The launch is not refused. SHUNT_BANK is one of its two settings by its type. -/
def launchOk (p : Params) : Bool := deviceAddrOk p.deviceAddr && shuntROk p.shuntR

end Sys2Proof.Machine
end

