-- ==== Sys2Proof/Machine/Memory.lean ====
section
/-! DEFINITION. The operations over the mock's map (20_memory.md R51) and the canonical form they keep. -/

namespace Sys2Proof.Machine

/-- The value a map holds at an address; none where it holds no value (20_memory.md R51). -/
def Memory.read : Memory → Nat → Option Word
  | [], _ => none
  | (b, w) :: m, a => if b = a then some w else Memory.read m a

/-- The map after `M[a] <- w` (20_memory.md R51): the entry stands at its place in the rising order of addresses. -/
def Memory.write : Memory → Nat → Word → Memory
  | [], a, w => [(a, w)]
  | (b, v) :: m, a, w =>
    if a < b then (a, w) :: (b, v) :: m
    else if a = b then (a, w) :: m
    else (b, v) :: Memory.write m a w

/-- Every address of the map is above `lo`, they rise strictly, and all are below 256. -/
def Memory.wfAbove : Option Nat → Memory → Bool
  | _, [] => true
  | lo, (a, _) :: m => (lo.all fun b => decide (b < a)) && decide (a < 256) && Memory.wfAbove (some a) m

/-- The canonical form: strictly rising 8-bit addresses (20_memory.md R40, R51; entry 7). An unlisted address holds
no value, so no entry equals what an unlisted address reads as, and equal maps are equal lists. -/
def Memory.wf (m : Memory) : Bool := Memory.wfAbove none m

end Sys2Proof.Machine
end

