-- ==== Sys2Proof/Machine/Transport.lean ====
section
/-! DEFINITION. How the transport answers a call, and what a call leaves in it (20_memory.md R49, R51). Calls are
numbered from 1 (95_test_vectors.md, P3). -/

namespace Sys2Proof.Machine

open Sys2Proof.Config

/-- The oracle's draw for call `n`: the next one listed, and a free value past the last (20_memory.md R49). -/
def oracleDraw (draws : List Draw) (n : Nat) (call : TransportCall) : Draw := draws.headD (freeDraw n call)

/-- The answer that a draw gives to a read (entry 4). -/
def drawReadAnswer (d : Draw) : ReadAnswer :=
  match d.ack with
  | .ok => .bytes d.bytes
  | .fail => .fail

/-- Does the test state that call `n` of the mock fails (20_memory.md R51)? -/
def mockFails (m : Mock) (n : Nat) : Bool := m.fails.contains n

/-- The answer to an `open` or a `writeBlock`: the oracle's draw; the mock's is `ok` unless the test states `fail`. -/
def transportAck (t : Transport) (n : Nat) (call : TransportCall) : Ack :=
  match t with
  | .oracle draws => (oracleDraw draws n call).ack
  | .mock m => if mockFails m n then .fail else .ok

/-- The mock's answer to a read of `a`; none where its map holds no value there, which is F_MOCK_UNWRITTEN whatever
the test states for the call (20_memory.md R51; 60_exceptions.md R145: the condition reads only the map, never an
answer). -/
def mockReadAnswer (m : Mock) (n : Nat) (a : RegAddr) : Option ReadAnswer :=
  match m.regs.read a.toNat with
  | none => none
  | some w =>
    if mockFails m n then some .fail
    else match m.readBytes.lookup n with
      | some bs => some (.bytes bs)
      | none => some (.bytes (wireBytes w))

/-- The answer to a `readBlock` of `a`, if the transport has one. -/
def transportReadAnswer (t : Transport) (n : Nat) (a : RegAddr) (call : TransportCall) : Option ReadAnswer :=
  match t with
  | .oracle draws => some (drawReadAnswer (oracleDraw draws n call))
  | .mock m => mockReadAnswer m n a

/-- The transport after an answered call that stores nothing: the oracle's draw is used up. -/
def transportAfterCall (t : Transport) : Transport :=
  match t with
  | .oracle draws => .oracle draws.tail
  | .mock m => .mock m

/-- The mock after a successful `writeBlock`: `M[a] <- b0:b1` (20_memory.md R51). Every write is of two bytes
(20_memory.md R45). -/
def mockStore (m : Mock) (a : RegAddr) (bs : List Byte) : Mock :=
  match bs with
  | [b0, b1] => { m with regs := m.regs.write a.toNat (b0 ++ b1) }
  | _ => m

/-- The transport after a `writeBlock` that it answered `r`. -/
def transportAfterWrite (t : Transport) (a : RegAddr) (bs : List Byte) (r : Ack) : Transport :=
  match t, r with
  | .mock m, .ok => .mock (mockStore m a bs)
  | t, _ => transportAfterCall t

end Sys2Proof.Machine
end

