-- ==== Sys2Proof/Machine/Ops.lean ====
section
/-! DEFINITION. The named operations over the state: how a command ends (00_scope.md R12), the transport calls
(00_scope.md R11), the two procedures every transport command calls (42_register_io.md R102, R103), and what a step
fetches and checks. -/

namespace Sys2Proof.Machine

open Sys2Proof.Config

/-! ### How a command ends (00_scope.md R12, 10_state.md R28, R29) -/

/-- `return v`: the command succeeds with a value, and the host goes on to the next command. -/
def State.returnValue (s : State) (v : Out) : State :=
  { s with out := v, err := 0, errinfo := .none, pc := s.pc + 1 }

/-- `raise Kind(info)`: TAKING AN ERROR, the one shared operation (60_exceptions.md R146). No pc or status is saved
and no mode changes: the host goes on to the next command. RETURNING FROM ONE is that next command's running
normally, its outcome overwriting ERR, ERRINFO and OUT (60_exceptions.md R147), so no operation stands beside it. -/
def State.raise (s : State) (kind : ErrKind) (info : ErrInfo) : State :=
  { s with out := .none, err := errCode kind, errinfo := info, pc := s.pc + 1 }

/-- `fault F`: FAULT is set and nothing else changes (10_state.md R28). -/
def State.takeFault (s : State) (f : Fault) : State := { s with fault := some f }

/-! ### Transport calls (00_scope.md R11, 20_memory.md R50, R52) -/

/-- The state after an answered call: LOG gets its entry (10_state.md R30), and the transport goes on. -/
def State.logCall (s : State) (e : LogEntry) (t : Transport) : State :=
  { s with log := s.log ++ [e], transport := t, calls := s.calls + 1 }

/-- The number of the next call, counting from 1. -/
def State.callNumber (s : State) : Nat := s.calls + 1

/-- `Open(BUS_ID)`: the answer, and the state after the call. -/
def State.openBus (s : State) : Ack × State :=
  let r := transportAck s.transport s.callNumber (.openBus s.params.busId)
  (r, s.logCall (.openBus s.params.busId r) (transportAfterCall s.transport))

/-- `MemWrite(a, 2, bs)`: the answer, and the state after the call. -/
def State.memWrite (s : State) (a : RegAddr) (bs : List Byte) : Ack × State :=
  let r := transportAck s.transport s.callNumber (.writeBlock s.params.deviceAddr a xferBytes bs)
  (r, s.logCall (.write s.params.deviceAddr a xferBytes bs r) (transportAfterWrite s.transport a bs r))

/-- `MemRead(a, 2)`: the answer and the state after the call; none where the mock holds no value, and then no call
is logged (10_state.md R28). -/
def State.memRead (s : State) (a : RegAddr) : Option (ReadAnswer × State) :=
  match transportReadAnswer s.transport s.callNumber a (.readBlock s.params.deviceAddr a xferBytes) with
  | none => none
  | some r => some (r, s.logCall (.read s.params.deviceAddr a xferBytes r) (transportAfterCall s.transport))

/-! ### The register procedures (42_register_io.md R102, R103) -/

/-- What a procedure that a command calls leaves: the command's end state, where it raised or faulted (00_scope.md
R13), or a value for the command to go on with. -/
inductive Flow (α : Type) where
  | ended (s : State)
  | value (a : α) (s : State)
deriving DecidableEq, Repr

/-- The command's end state, given what it does with the procedure's value. -/
def flowEnd {α : Type} (f : Flow α) (k : α → State → State) : State :=
  match f with
  | .ended s => s
  | .value a s => k a s

/-- The state after an answered write of `v` at `a`: only a write at CONFIG_ADDR changes cfg_state (10_state.md
R25). -/
def State.noteWrite (s : State) (a : RegAddr) (v : Word) (r : Ack) : State :=
  if a = configAddr then
    match r with
    | .fail => { s with cfgState := .unconfigured }
    | .ok => { s with cfgState := if configRst v then .unconfigured else .configured }
  else s

/-- `writeRegister(a, v)` (42_register_io.md R102): one call, no retry (R109). -/
def State.writeRegister (s : State) (a : RegAddr) (v : Word) : Flow Unit :=
  if s.handleOpen then
    match s.memWrite a (wireBytes v) with
    | (.fail, s') => .ended ((s'.noteWrite a v .fail).raise .transportError .writeFailed)
    | (.ok, s') => .value () (s'.noteWrite a v .ok)
  else .ended (s.takeFault .noHandle)

/-- What `readRegister` makes of an answered read (42_register_io.md R103): exactly two bytes are decoded, the bytes
of a short or long read never (60_exceptions.md R143). -/
def State.readReply (s : State) (r : ReadAnswer) : Flow Int :=
  match r with
  | .fail => .ended (s.raise .transportError .readFailed)
  | .bytes [b0, b1] => .value (dec16 b0 b1) s
  | .bytes bs =>
    if bs.length < xferBytes then .ended (s.raise .protocolError (.shortRead bs.length))
    else .ended (s.raise .protocolError (.longRead bs.length))

/-- `readRegister(a)` (42_register_io.md R103): one call, no retry (R109). -/
def State.readRegister (s : State) (a : RegAddr) : Flow Int :=
  if s.handleOpen then
    match s.cfgState with
    | .unconfigured => .ended (s.takeFault .unconfigured)
    | .configured =>
      match s.memRead a with
      | none => .ended (s.takeFault .mockUnwritten)
      | some (r, s') => s'.readReply r
  else .ended (s.takeFault .noHandle)

/-! ### What the channel commands share (41_address.md R90) -/

/-- The channel check, which comes before any state is read and any call is made; then the command's own work. -/
def State.onChannel (s : State) (ch : Nat) (k : State) : State :=
  if validCh ch then k else s.raise .preconditionError (.badChannel ch)

/-- One register read whose sample the command turns into its result (20_memory.md R52). -/
def State.readAndReturn (s : State) (a : RegAddr) (result : Int → Out) : State :=
  flowEnd (s.readRegister a) fun n s' => s'.returnValue (result n)

/-! ### What a step fetches and checks -/

/-- The command the host issues next; none where the program has ended (10_state.md R29, 70_reset_and_hazards.md
R170). -/
def State.fetch (s : State) : Option Command := s.program[s.pc]?

/-- What an illegal command word runs (30_encoding.md R64). -/
def execIllegal (s : State) : State := s.raise .preconditionError .illegalCommand

/-- A program with `w` as its command `pc`; where it is shorter, the commands before are words of zeros. -/
def setCommand (program : List Command) (pc : Nat) (w : Command) : List Command :=
  if pc < program.length then program.set pc w
  else program ++ List.replicate (pc - program.length) 0 ++ [w]

end Sys2Proof.Machine
end

