-- ==== Sys2Proof/Machine/Address.lean ====
section
/-! DEFINITION. The meanings of BUSADDR and SHUNTADDR (41_address.md). -/

namespace Sys2Proof.Machine

/-- BUSADDR (41_address.md R93): no call, no handle or configuration needed. -/
def execBusaddr (ch : Nat) (s : State) : Host.Outcome State Fault Refusal :=
  .next (s.onChannel ch (s.returnValue (.a8 (busAddr ch))))

/-- SHUNTADDR (41_address.md R94): as BUSADDR, by the setting of SHUNT_BANK. -/
def execShuntaddr (ch : Nat) (s : State) : Host.Outcome State Fault Refusal :=
  .next (s.onChannel ch (s.returnValue (.a8 (shuntAddr s.params.shuntBank ch))))

end Sys2Proof.Machine
end

