-- ==== Sys2Proof/Machine/ConfigWord.lean ====
section
/-! DEFINITION. The meanings of CFG and INIT (40_config_word.md). -/

namespace Sys2Proof.Machine

/-- CFG (40_config_word.md R80): a pure computation. -/
def execCfg (o : CfgOptions) (s : State) : Host.Outcome State Fault Refusal :=
  .next (s.returnValue (.w16 (configure o)))

/-- INIT's state (40_config_word.md R83). The write is `writeRegister(0x00, DEFAULT_CONFIG)` of 42_register_io.md
R102, which sets cfg_state as R83 says; its handle check holds, since the open succeeded. -/
def initState (s : State) : State :=
  if s.handleOpen then s.takeFault .reinit
  else match s.openBus with
    | (.fail, s1) => s1.raise .openError .openFailed
    | (.ok, s1) =>
      flowEnd (State.writeRegister { s1 with handleOpen := true } configAddr defaultConfig)
        fun _ s2 => s2.returnValue .unit

/-- INIT (40_config_word.md R83). -/
def execInit (s : State) : Host.Outcome State Fault Refusal := .next (initState s)

end Sys2Proof.Machine
end

