-- ==== Sys2Proof/Machine/RegisterIo.lean ====
section
/-! DEFINITION. The meanings of WRREG, RDREG, ENC16 and DEC16 (42_register_io.md). -/

namespace Sys2Proof.Machine

/-- WRREG (42_register_io.md R104): legal in either cfg_state, at every address. -/
def execWrreg (addr : RegAddr) (data : Word) (s : State) : Host.Outcome State Fault Refusal :=
  .next (flowEnd (s.writeRegister addr data) fun _ s' => s'.returnValue .unit)

/-- RDREG (42_register_io.md R105): legal at every address. -/
def execRdreg (addr : RegAddr) (s : State) : Host.Outcome State Fault Refusal :=
  .next (s.readAndReturn addr .i)

/-- ENC16 (42_register_io.md R106): the encoder's two bytes, without the transport. -/
def execEnc16 (data : Word) (s : State) : Host.Outcome State Fault Refusal :=
  .next (s.returnValue (.b2 (enc16 data).1 (enc16 data).2))

/-- DEC16 (42_register_io.md R107): the decoder alone. -/
def execDec16 (b0 b1 : Byte) (s : State) : Host.Outcome State Fault Refusal :=
  .next (s.returnValue (.i (dec16 b0 b1)))

end Sys2Proof.Machine
end

