-- ==== Sys2Proof/Machine/Scaler.lean ====
section
/-! DEFINITION. The meanings of BUSRAW, SHUNTRAW, SCALEBUS, BUSV and CURMA (43_scaler.md). No configuration code
changes their formulas (40_config_word.md R84), and the formulas are the same for every channel (R120). -/

namespace Sys2Proof.Machine

/-- BUSRAW (43_scaler.md R122). -/
def execBusraw (ch : Nat) (s : State) : Host.Outcome State Fault Refusal :=
  .next (s.onChannel ch (s.readAndReturn (busAddr ch) fun v => .i (busScale v)))

/-- SHUNTRAW (43_scaler.md R123): the sample of the register that SHUNT_BANK selects, unchanged. -/
def execShuntraw (ch : Nat) (s : State) : Host.Outcome State Fault Refusal :=
  .next (s.onChannel ch (s.readAndReturn (shuntAddr s.params.shuntBank ch) fun v => .i (shuntXform v)))

/-- SCALEBUS (43_scaler.md R124): the bus scaler on the command's own raw value. -/
def execScalebus (raw : Word) (s : State) : Host.Outcome State Fault Refusal :=
  .next (s.returnValue (.i (busScale (sext16 raw))))

/-- BUSV (43_scaler.md R126). -/
def execBusv (ch : Nat) (s : State) : Host.Outcome State Fault Refusal :=
  .next (s.onChannel ch (s.readAndReturn (busAddr ch) fun v => .f64 (busVolts (busScale v))))

/-- CURMA (43_scaler.md R128). The number is R127's; no physical unit is asserted (R129). -/
def execCurma (ch : Nat) (s : State) : Host.Outcome State Fault Refusal :=
  .next (s.onChannel ch
    (s.readAndReturn (shuntAddr s.params.shuntBank ch) fun v => .f64 (current s.params.shuntR (shuntXform v))))

end Sys2Proof.Machine
end

