-- ==== Sys2Proof/Machine/Dispatch.lean ====
section
/-! DEFINITION. The meaning of every command: one arm per row of the opcode map (30_encoding.md R63). -/

namespace Sys2Proof.Machine

/-- One command's meaning. The checks that come before any command (the launch, FAULT, the word's legality) are
`step`'s. -/
def exec (i : Instr) (s : State) : Host.Outcome State Fault Refusal :=
  match i with
  | .init => Sys2Proof.Machine.execInit s
  | .cfg o => Sys2Proof.Machine.execCfg o s
  | .busaddr ch => Sys2Proof.Machine.execBusaddr ch s
  | .shuntaddr ch => Sys2Proof.Machine.execShuntaddr ch s
  | .wrreg addr data => Sys2Proof.Machine.execWrreg addr data s
  | .rdreg addr => Sys2Proof.Machine.execRdreg addr s
  | .enc16 data => Sys2Proof.Machine.execEnc16 data s
  | .dec16 b0 b1 => Sys2Proof.Machine.execDec16 b0 b1 s
  | .busraw ch => Sys2Proof.Machine.execBusraw ch s
  | .shuntraw ch => Sys2Proof.Machine.execShuntraw ch s
  | .scalebus raw => Sys2Proof.Machine.execScalebus raw s
  | .busv ch => Sys2Proof.Machine.execBusv ch s
  | .curma ch => Sys2Proof.Machine.execCurma ch s

end Sys2Proof.Machine
end

