-- ==== Sys2Proof/Machine/Step.lean ====
section
/-! DEFINITION. One step: the host issues the command at `pc` and the block runs it (00_scope.md R3, 10_state.md
R29). -/

namespace Sys2Proof.Machine

/-- One step. A launch out of range takes none (70_reset_and_hazards.md R161); a machine whose FAULT is set takes
none (10_state.md R28, 60_exceptions.md R149); a program that has ended issues nothing (70_reset_and_hazards.md
R170). A legal word runs its command and an illegal one raises its error, before every other check of the command
(30_encoding.md R64, R70, 60_exceptions.md R148). -/
def step (s : State) : Host.Outcome State Fault Refusal :=
  if launchOk s.params then
    match s.fault with
    | some f => .fault f
    | none =>
      match s.fetch with
      | none => .refused .programEnded
      | some w =>
        match decode w with
        | .ok i => exec i s
        | .error _ => .next (execIllegal s)
  else .refused .launchRefused

/-- `s` with the instruction whose bits are `w` (30_encoding.md R60: one 32-bit word) as the next command the host
issues: the program's command `pc` (entry 2). -/
def State.withFetchWord (s : State) (nbits w : Nat) : State :=
  { s with program := setCommand s.program s.pc (BitVec.ofNat 32 (w % 2 ^ nbits)) }

end Sys2Proof.Machine
end

