-- ==== Sys2Proof/Machine/Assembler.lean ====
section
/-! DEFINITION. The assembler: its lines as data, the pseudo-instructions and range checks (30_encoding.md R67 to
R69), and the reading of its text. No step uses it: it writes the words a host issues. -/

namespace Sys2Proof.Machine

/-! ### Lines as data -/

/-- A key of CFG and WRCFG with its value (30_encoding.md R68). -/
inductive CfgKey where
  | rst (n : Nat)
  | en (channels : List Nat)
  | avg (n : Nat)
  | bct (n : Nat)
  | sct (n : Nat)
  | mode (n : Nat)
deriving DecidableEq, Repr

/-- A line: a command's form (30_encoding.md R67) or a pseudo-instruction (R69). A 16-bit operand may be a
negative number. -/
inductive AsmLine where
  | init
  | cfg (keys : List CfgKey)
  | busaddr (c : Nat)
  | shuntaddr (c : Nat)
  | wrreg (a : Nat) (v : Int)
  | rdreg (a : Nat)
  | enc16 (v : Int)
  | dec16 (b0 b1 : Nat)
  | busraw (c : Nat)
  | shuntraw (c : Nat)
  | scalebus (v : Int)
  | busv (c : Nat)
  | curma (c : Nat)
  | cfgdef
  | wrcfg (keys : List CfgKey)
  | resetdev
deriving DecidableEq, Repr

/-- Why a line does not assemble (30_encoding.md R67, R68). -/
inductive AsmError where
  /-- An operand is out of its field's range. -/
  | outOfRange
  /-- A key of CFG appears twice. -/
  | repeatedKey
  /-- A channel appears twice in `en`. -/
  | repeatedChannel
  /-- The text is no mnemonic of the assembler's. -/
  | unknownMnemonic
  /-- The text after the mnemonic is not of the mnemonic's form. -/
  | badForm
deriving DecidableEq, Repr

/-- The value, if it is below the bound of its field. -/
def asmBelow (bound n : Nat) : Except AsmError Nat := if n < bound then .ok n else .error .outOfRange

/-- A 16-bit operand: 0 to 65535, or -32768 to -1 as `trunc_16` of it (30_encoding.md R67). -/
def asmWord (v : Int) : Except AsmError Word :=
  if -32768 ≤ v ∧ v < 65536 then .ok (trunc16 v) else .error .outOfRange

/-- A three-bit option. -/
def asmBits3 (n : Nat) : Except AsmError (BitVec 3) :=
  match asmBelow 8 n with
  | .ok n => .ok (BitVec.ofNat 3 n)
  | .error e => .error e

/-- Two keys are the same key, whatever their values. -/
def sameKey : CfgKey → CfgKey → Bool
  | .rst _, .rst _ => true
  | .en _, .en _ => true
  | .avg _, .avg _ => true
  | .bct _, .bct _ => true
  | .sct _, .sct _ => true
  | .mode _, .mode _ => true
  | _, _ => false

/-- The options when every key is omitted: 0, and the empty set for `en` (30_encoding.md R68). -/
def noOptions : CfgOptions where
  reset := false
  ch1 := false
  ch2 := false
  ch3 := false
  avg := 0
  busCt := 0
  shuntCt := 0
  mode := 0

/-- The options with one more key's value. -/
def setKey (o : CfgOptions) (k : CfgKey) : Except AsmError CfgOptions :=
  match k with
  | .rst n => do let n ← asmBelow 2 n; return { o with reset := n == 1 }
  | .en cs =>
    if !cs.all validCh then .error .outOfRange
    else if cs.Nodup then .ok { o with ch1 := cs.contains 1, ch2 := cs.contains 2, ch3 := cs.contains 3 }
    else .error .repeatedChannel
  | .avg n => do return { o with avg := ← asmBits3 n }
  | .bct n => do return { o with busCt := ← asmBits3 n }
  | .sct n => do return { o with shuntCt := ← asmBits3 n }
  | .mode n => do return { o with mode := ← asmBits3 n }

/-- The options of a list of keys, each of which may appear once (30_encoding.md R68). -/
def asmOptions : List CfgKey → Except AsmError CfgOptions
  | [] => .ok noOptions
  | k :: ks =>
    if ks.any (sameKey k) then .error .repeatedKey
    else match asmOptions ks with
      | .ok o => setKey o k
      | .error e => .error e

/-- The command that a line stands for, a pseudo-instruction expanded (30_encoding.md R69). -/
def asmInstr (line : AsmLine) : Except AsmError Instr :=
  match line with
  | .init => .ok .init
  | .cfg ks => do return .cfg (← asmOptions ks)
  | .busaddr c => do return .busaddr (← asmBelow 16 c)
  | .shuntaddr c => do return .shuntaddr (← asmBelow 16 c)
  | .wrreg a v => do return .wrreg (BitVec.ofNat 8 (← asmBelow 256 a)) (← asmWord v)
  | .rdreg a => do return .rdreg (BitVec.ofNat 8 (← asmBelow 256 a))
  | .enc16 v => do return .enc16 (← asmWord v)
  | .dec16 b0 b1 => do return .dec16 (BitVec.ofNat 8 (← asmBelow 256 b0)) (BitVec.ofNat 8 (← asmBelow 256 b1))
  | .busraw c => do return .busraw (← asmBelow 16 c)
  | .shuntraw c => do return .shuntraw (← asmBelow 16 c)
  | .scalebus v => do return .scalebus (← asmWord v)
  | .busv c => do return .busv (← asmBelow 16 c)
  | .curma c => do return .curma (← asmBelow 16 c)
  | .cfgdef => .ok (.cfg defaultOptions)
  | .wrcfg ks => do return .wrreg configAddr (configure (← asmOptions ks))
  | .resetdev => .ok (.wrreg configAddr 0x8000)

/-- The command word of a line (30_encoding.md R67). -/
def assemble (line : AsmLine) : Except AsmError Command :=
  match asmInstr line with
  | .ok i => .ok (encode i)
  | .error e => .error e

/-! ### Text

DESIGN CHOICE (entry 12), where 30_encoding.md R67 is silent: white space separates and is otherwise ignored,
mnemonics and keys are spelled as the spec spells them, and a line of nothing but white space and a comment holds
no command. -/

/-- What a line's text is made of: runs of letters, digits and underscores, and single other characters. -/
inductive AsmAtom where
  | name (cs : List Char)
  | punct (c : Char)
deriving DecidableEq, Repr

/-- A left brace. -/
def lbrace : Char := Char.ofNat 123

/-- A right brace. -/
def rbrace : Char := Char.ofNat 125

/-- The value of a digit, up to base 16. -/
def digitVal (c : Char) : Option Nat :=
  let n := c.toNat
  if 48 ≤ n ∧ n ≤ 57 then some (n - 48)
  else if 65 ≤ n ∧ n ≤ 70 then some (n - 55)
  else if 97 ≤ n ∧ n ≤ 102 then some (n - 87)
  else none

/-- A character of a mnemonic, a key or a number. -/
def isNameChar (c : Char) : Bool :=
  let n := c.toNat
  (48 ≤ n && n ≤ 57) || (65 ≤ n && n ≤ 90) || (97 ≤ n && n ≤ 122) || n == 95

/-- A space, a tab or a carriage return. -/
def isBlank (c : Char) : Bool := c.toNat == 32 || c.toNat == 9 || c.toNat == 13

/-- The name gathered so far, last character first, before the atoms that follow it. -/
def withName (gathered : List Char) (rest : List AsmAtom) : List AsmAtom :=
  if gathered.isEmpty then rest else .name gathered.reverse :: rest

/-- The atoms of a line; `;` starts a comment (30_encoding.md R67). -/
def atomsOf : List Char → List Char → List AsmAtom
  | [], gathered => withName gathered []
  | c :: cs, gathered =>
    if c = ';' then withName gathered []
    else if isNameChar c then atomsOf cs (c :: gathered)
    else if isBlank c then withName gathered (atomsOf cs [])
    else withName gathered (.punct c :: atomsOf cs [])

/-- The number that digits of a base spell, above a value gathered so far. -/
def readDigits (base : Nat) : List Char → Nat → Option Nat
  | [], n => some n
  | c :: cs, n =>
    match digitVal c with
    | none => none
    | some d => if d < base then readDigits base cs (n * base + d) else none

/-- A decimal number. -/
def readDecimal (cs : List Char) : Option Nat := if cs.isEmpty then none else readDigits 10 cs 0

/-- A number: hex with `0x`, and else decimal (30_encoding.md R67). -/
def readNat (cs : List Char) : Option Nat :=
  match cs with
  | '0' :: 'x' :: d :: ds => readDigits 16 (d :: ds) 0
  | cs => readDecimal cs

/-- The arguments of a line, which commas outside braces separate. -/
def splitArgs : List AsmAtom → Bool → List AsmAtom → List (List AsmAtom)
  | [], _, gathered => [gathered.reverse]
  | a :: as, inBraces, gathered =>
    if a = .punct ',' ∧ inBraces = false then gathered.reverse :: splitArgs as false []
    else splitArgs as (if a = .punct lbrace then true else if a = .punct rbrace then false else inBraces) (a :: gathered)

/-- The arguments after a mnemonic; none at all where nothing follows it. -/
def argsOf (as : List AsmAtom) : List (List AsmAtom) := if as.isEmpty then [] else splitArgs as false []

/-- An unsigned operand. -/
def readNatArg (as : List AsmAtom) : Except AsmError Nat :=
  match as with
  | [.name cs] =>
    match readNat cs with
    | some n => .ok n
    | none => .error .badForm
  | _ => .error .badForm

/-- A 16-bit operand: a number, or a signed decimal (30_encoding.md R67). R67 gives signed decimals from -32768 to -1
only: that `-0` reads as 0, and so assembles as `0` does, is the model's choice (DESIGN CHOICE, entry 12). -/
def readIntArg (as : List AsmAtom) : Except AsmError Int :=
  match as with
  | [.punct '-', .name cs] =>
    match readDecimal cs with
    | some n => .ok (-(n : Int))
    | none => .error .badForm
  | as =>
    match readNatArg as with
    | .ok n => .ok n
    | .error e => .error e

/-- The channels of a set, already split at its commas. -/
def readChannels : List (List AsmAtom) → Except AsmError (List Nat)
  | [] => .ok []
  | a :: as => do
    let c ← readNatArg a
    let cs ← readChannels as
    return c :: cs

/-- The set of channels that braces enclose, the closing brace the last atom. -/
def readSet (as : List AsmAtom) : Except AsmError (List Nat) :=
  match as.reverse with
  | .punct c :: inside => if c = rbrace then readChannels (argsOf inside.reverse) else .error .badForm
  | _ => .error .badForm

/-- A key and its value (30_encoding.md R68). -/
def readKey (as : List AsmAtom) : Except AsmError CfgKey :=
  match as with
  | .name k :: .punct '=' :: value =>
    if k = ['e', 'n'] then
      match value with
      | .punct c :: rest => if c = lbrace then do return .en (← readSet rest) else .error .badForm
      | _ => .error .badForm
    else if k = ['r', 's', 't'] then do return .rst (← readNatArg value)
    else if k = ['a', 'v', 'g'] then do return .avg (← readNatArg value)
    else if k = ['b', 'c', 't'] then do return .bct (← readNatArg value)
    else if k = ['s', 'c', 't'] then do return .sct (← readNatArg value)
    else if k = ['m', 'o', 'd', 'e'] then do return .mode (← readNatArg value)
    else .error .badForm
  | _ => .error .badForm

/-- The keys of CFG and WRCFG. -/
def readKeys : List (List AsmAtom) → Except AsmError (List CfgKey)
  | [] => .ok []
  | a :: as => do
    let k ← readKey a
    let ks ← readKeys as
    return k :: ks

/-- A line without operands. -/
def readNone (args : List (List AsmAtom)) (line : AsmLine) : Except AsmError AsmLine :=
  match args with
  | [] => .ok line
  | _ => .error .badForm

/-- A line with one unsigned operand. -/
def readOne (args : List (List AsmAtom)) (line : Nat → AsmLine) : Except AsmError AsmLine :=
  match args with
  | [a] => do return line (← readNatArg a)
  | _ => .error .badForm

/-- A line with one 16-bit operand. -/
def readOneWord (args : List (List AsmAtom)) (line : Int → AsmLine) : Except AsmError AsmLine :=
  match args with
  | [a] => do return line (← readIntArg a)
  | _ => .error .badForm

/-- The form that a mnemonic takes (30_encoding.md R67, R69). -/
def readForm (mnemonic : List Char) (args : List (List AsmAtom)) : Except AsmError AsmLine :=
  if mnemonic = ['I', 'N', 'I', 'T'] then readNone args .init
  else if mnemonic = ['C', 'F', 'G'] then do return .cfg (← readKeys args)
  else if mnemonic = ['B', 'U', 'S', 'A', 'D', 'D', 'R'] then readOne args .busaddr
  else if mnemonic = ['S', 'H', 'U', 'N', 'T', 'A', 'D', 'D', 'R'] then readOne args .shuntaddr
  else if mnemonic = ['W', 'R', 'R', 'E', 'G'] then
    match args with
    | [a, v] => do return .wrreg (← readNatArg a) (← readIntArg v)
    | _ => .error .badForm
  else if mnemonic = ['R', 'D', 'R', 'E', 'G'] then readOne args .rdreg
  else if mnemonic = ['E', 'N', 'C', '1', '6'] then readOneWord args .enc16
  else if mnemonic = ['D', 'E', 'C', '1', '6'] then
    match args with
    | [b0, b1] => do return .dec16 (← readNatArg b0) (← readNatArg b1)
    | _ => .error .badForm
  else if mnemonic = ['B', 'U', 'S', 'R', 'A', 'W'] then readOne args .busraw
  else if mnemonic = ['S', 'H', 'U', 'N', 'T', 'R', 'A', 'W'] then readOne args .shuntraw
  else if mnemonic = ['S', 'C', 'A', 'L', 'E', 'B', 'U', 'S'] then readOneWord args .scalebus
  else if mnemonic = ['B', 'U', 'S', 'V'] then readOne args .busv
  else if mnemonic = ['C', 'U', 'R', 'M', 'A'] then readOne args .curma
  else if mnemonic = ['C', 'F', 'G', 'D', 'E', 'F'] then readNone args .cfgdef
  else if mnemonic = ['W', 'R', 'C', 'F', 'G'] then do return .wrcfg (← readKeys args)
  else if mnemonic = ['R', 'E', 'S', 'E', 'T', 'D', 'E', 'V'] then readNone args .resetdev
  else .error .unknownMnemonic

/-- The line that a text spells; none where it holds no command. -/
def readLine (text : List Char) : Except AsmError (Option AsmLine) :=
  match atomsOf text [] with
  | [] => .ok none
  | .name m :: rest => do return some (← readForm m (argsOf rest))
  | .punct _ :: _ => .error .badForm

/-- The command words of a text's lines, one command a line (30_encoding.md R67). -/
def assembleLines : List (List Char) → Except AsmError (List Command)
  | [] => .ok []
  | text :: rest => do
    let line ← readLine text
    let words ← assembleLines rest
    match line with
    | none => return words
    | some line => return (← assemble line) :: words

end Sys2Proof.Machine
end

