-- ==== Sys2Proof/Machine/Instances.lean ====
section
/-! DEFINITION. Several devices are several instances of the block, which share no state: a run of several is an
interleaving of independent runs (60_exceptions.md R154, 90_conflicts.md C8). The block itself knows of no other
instance. -/

namespace Sys2Proof.Machine

/-- One step of instance `k` of several, with the others as they are; none where there is no instance `k` or it
takes no step. Which instance moves next is the hosts' choice. -/
def stepInstance (instances : List State) (k : Nat) : Option (List State) :=
  match instances[k]? with
  | none => none
  | some s =>
    match step s with
    | .next s' => some (instances.set k s')
    | .fault _ => none
    | .refused _ => none

end Sys2Proof.Machine
end

