-- ==== Sys2Proof/Safety.lean ====
section
/-! DEFINITION. What the statements are made of: how a run ends (70_reset_and_hazards.md R170), the number a binary64
pattern stands for (00_scope.md R10), and the invariant of the block's state. -/

namespace Sys2Proof.Safety

open Sys2Proof.Machine Sys2Proof.Config

/-! ### Runs -/

/-- The run has ended successfully: every command of the program was run, and no fault (70_reset_and_hazards.md
R170). -/
def Succeeded (s : State) : Prop := s.pc = s.program.length ∧ s.fault = none

/-- The run has stopped without success: a fault is set (60_exceptions.md R149, 70_reset_and_hazards.md R170). -/
def Faulted (s : State) : Prop := s.fault ≠ none

/-- `t` follows `s` by some number of steps, each answering a next state. -/
inductive Steps : State → State → Prop where
  | refl (s : State) : Steps s s
  | tail {s t u : State} : Steps s t → step t = .next u → Steps s u

/-! ### Numbers -/

/-- The number that the pattern of a finite binary64 stands for. -/
def f64Value (p : F64) : ℚ := (if f64Neg p then -1 else 1) * (f64Mant p : ℚ) * (2 : ℚ) ^ f64Scale p

/-- `r` is the finite binary64 nearest `x`, the one with an even significand where two are equally near (00_scope.md
R10). -/
def NearestEven (x : ℚ) (r : F64) : Prop :=
  f64IsFinite r = true ∧ ∀ q : F64, f64IsFinite q = true →
    |f64Value r - x| ≤ |f64Value q - x| ∧
    (|f64Value r - x| = |f64Value q - x| → f64Value q ≠ f64Value r → f64Frac r % 2 = 0)

/-- `r` is `x` rounded to nearest, ties to even: infinite from half a last place past the greatest finite number on,
and else the nearest finite number. -/
def CorrectlyRounded (x : ℚ) (r : F64) : Prop :=
  (|x| < 2 ^ 1024 - 2 ^ 970 → NearestEven x r) ∧ (2 ^ 1024 - 2 ^ 970 ≤ |x| → f64IsInf r = true)

/-! ### What LOG says of the handle and of cfg_state -/

/-- The entry is a successful `open`. -/
def isOpenOk : LogEntry → Bool
  | .openBus _ .ok => true
  | _ => false

/-- cfg_state after a call: the table of 10_state.md R25. A write at 0x00 makes it Configured where the write succeeds
and bit 15 of the word, the top bit of its first byte, is 0; else Unconfigured. -/
def cfgAfterEntry (c : CfgState) : LogEntry → CfgState
  | .write _ a _ bs r =>
    if a = 0x00 then
      match r, bs with
      | .ok, b0 :: _ => if b0.getLsbD 7 then .unconfigured else .configured
      | _, _ => .unconfigured
    else c
  | _ => c

/-- cfg_state after the calls of a log, from its reset value. -/
def cfgAfterLog (log : List LogEntry) : CfgState := log.foldl cfgAfterEntry .unconfigured

/-- The call is one the block makes: BUS_ID, DEVICE_ADDR and the byte count are as 20_memory.md R45 and R50 say. -/
def entryOk (p : Params) : LogEntry → Prop
  | .openBus bus _ => bus = p.busId
  | .write device _ count bs _ => device = p.deviceAddr ∧ count = 2 ∧ bs.length = 2
  | .read device _ count _ => device = p.deviceAddr ∧ count = 2

/-! ### The invariant -/

/-- A diagnostic's payload is one that its error records (10_state.md R23). -/
def infoOk : ErrInfo → Prop
  | .shortRead k => k < 2
  | .longRead k => 2 < k
  | .badChannel c => c < 16 ∧ c ≠ 1 ∧ c ≠ 2 ∧ c ≠ 3
  | _ => True

/-- ERR, ERRINFO and OUT belong together (10_state.md R21 to R23, 60_exceptions.md R146): the code is the
diagnostic's, and a failed command leaves no value. -/
def outcomeOk (s : State) : Prop :=
  s.err = errOfInfo s.errinfo ∧ infoOk s.errinfo ∧ (s.errinfo ≠ .none → s.out = .none)

/-- An integer in OUT is a signed 16-bit number (43_scaler.md R121, R130, 42_register_io.md R101). -/
def outRangeOk : Out → Prop
  | .i n => -32768 ≤ n ∧ n ≤ 32767
  | _ => True

/-- A set FAULT is one whose condition holds (60_exceptions.md R145, R148). -/
def faultOk (s : State) : Prop :=
  match s.fault with
  | none => True
  | some .noHandle => s.handleOpen = false
  | some .unconfigured => s.handleOpen = true ∧ s.cfgState = .unconfigured
  | some .reinit => s.handleOpen = true
  | some .mockUnwritten => s.handleOpen = true ∧ s.cfgState = .configured ∧ ∃ m, s.transport = .mock m

/-- The mock's map is in its canonical form (entry 7). -/
def transportOk : Transport → Prop
  | .oracle _ => True
  | .mock m => m.regs.wf = true

/-- The invariant of the block's state. -/
structure Inv (s : State) : Prop where
  /-- ERR, ERRINFO and OUT belong together. -/
  outcome : outcomeOk s
  /-- An integer result is a signed 16-bit number. -/
  range : outRangeOk s.out
  /-- Every logged call has the arguments of 20_memory.md R45 and R50. -/
  entries : ∀ e ∈ s.log, entryOk s.params e
  /-- A handle is open exactly when LOG holds a successful `open` (10_state.md R24). -/
  handle : s.handleOpen = s.log.any isOpenOk
  /-- No register was transferred before a handle was open (60_exceptions.md R145). -/
  opened : s.handleOpen = false → ∀ e ∈ s.log, ∃ bus, e = .openBus bus .fail
  /-- cfg_state is what the logged writes at 0x00 make it (10_state.md R25). -/
  config : s.cfgState = cfgAfterLog s.log
  /-- The model's call counter counts LOG (entry 13). -/
  counted : s.calls = s.log.length
  /-- The mock's map is in its canonical form. -/
  transport : transportOk s.transport
  /-- A set FAULT is one whose condition holds. -/
  fault : faultOk s
  /-- The host issues no command past the program's end (10_state.md R29). -/
  pc : s.pc ≤ s.program.length

end Sys2Proof.Safety
end

