-- ==== Sys2Proof/Certificates/Slice0/Obligations.lean ====
section
/-! DEFINITION. The statements for the provers, and the terms they are written in: the spec's own pseudocode
primitives spelled out as states, apart from the model's operations. -/

namespace Sys2Proof.Statement

open Sys2Proof.Machine Sys2Proof.Config

/-! ### How a command ends (00_scope.md R12) -/

/-- `return v`. -/
def Returned (s : State) (v : Out) : State :=
  { s with out := v, err := 0, errinfo := .none, pc := s.pc + 1 }

/-- `raise`: ERR takes the code, ERRINFO the diagnostic, OUT no value. -/
def Raised (s : State) (code : BitVec 3) (info : ErrInfo) : State :=
  { s with out := .none, err := code, errinfo := info, pc := s.pc + 1 }

/-- `fault F`. -/
def FaultSet (s : State) (f : Fault) : State := { s with fault := some f }

/-! ### The transport's next answer, and the state after the call (20_memory.md R50) -/

/-- The transport's answer to `open(BUS_ID)` as the next call. -/
def OpenAnswer (s : State) : Ack := transportAck s.transport (s.calls + 1) (.openBus s.params.busId)

/-- The transport's answer to a two-byte write at `a` as the next call. -/
def WriteAnswer (s : State) (a : RegAddr) (bs : List Byte) : Ack :=
  transportAck s.transport (s.calls + 1) (.writeBlock s.params.deviceAddr a 2 bs)

/-- The transport's answer to a two-byte read at `a` as the next call; none where the mock holds no value there. -/
def ReadAnswerTo (s : State) (a : RegAddr) : Option ReadAnswer :=
  transportReadAnswer s.transport (s.calls + 1) a (.readBlock s.params.deviceAddr a 2)

/-- The state after an `open` that was answered `r`. -/
def AfterOpen (s : State) (r : Ack) : State :=
  { s with log := s.log ++ [.openBus s.params.busId r], transport := transportAfterCall s.transport,
           calls := s.calls + 1 }

/-- The state after a write that was answered `r`, but for cfg_state. -/
def AfterWrite (s : State) (a : RegAddr) (bs : List Byte) (r : Ack) : State :=
  { s with log := s.log ++ [.write s.params.deviceAddr a 2 bs r],
           transport := transportAfterWrite s.transport a bs r, calls := s.calls + 1 }

/-- The state after a read that was answered `r`. -/
def AfterRead (s : State) (a : RegAddr) (r : ReadAnswer) : State :=
  { s with log := s.log ++ [.read s.params.deviceAddr a 2 r], transport := transportAfterCall s.transport,
           calls := s.calls + 1 }

/-- cfg_state after a write of `v` at `a` that was answered `r` (10_state.md R25). -/
def CfgAfterWrite (old : CfgState) (a : RegAddr) (v : Word) (r : Ack) : CfgState :=
  if a = 0x00 then (if r = .ok ∧ v.getLsbD 15 = false then .configured else .unconfigured) else old

/-- Two bytes as a big-endian signed 16-bit integer (20_memory.md R44). -/
def SignedBigEndian (bs : List Byte) : Int :=
  let n : Int := bs.foldl (fun n b => n * 256 + b.toNat) 0
  if n < 0x8000 then n else n - 0x10000

/-- A command that makes one register read at `a` and turns the sample into a result: every case of
42_register_io.md R103. -/
def ReadCommand (s : State) (a : RegAddr) (result : Int → Out) : State :=
  if s.handleOpen = false then FaultSet s .noHandle
  else if s.cfgState = .unconfigured then FaultSet s .unconfigured
  else match ReadAnswerTo s a with
    | none => FaultSet s .mockUnwritten
    | some .fail => Raised (AfterRead s a .fail) 2 .readFailed
    | some (.bytes bs) =>
      if bs.length = 2 then Returned (AfterRead s a (.bytes bs)) (result (SignedBigEndian bs))
      else if bs.length < 2 then Raised (AfterRead s a (.bytes bs)) 3 (.shortRead bs.length)
      else Raised (AfterRead s a (.bytes bs)) 3 (.longRead bs.length)

/-! ### Channels and addresses (41_address.md R90 to R92) -/

/-- The channel is valid. -/
abbrev Valid (c : Nat) : Prop := c = 1 ∨ c = 2 ∨ c = 3

/-- The bus-voltage register's address. -/
def BusRegister (c : Nat) : RegAddr := BitVec.ofNat 8 (0x02 + (c - 1) * 2)

/-- The address SHUNTRAW and CURMA read. -/
def ShuntRegister (bank : ShuntBank) (c : Nat) : RegAddr :=
  if bank = .corrected then BitVec.ofNat 8 (0x01 + (c - 1) * 2) else BusRegister c

/-- The address that a reading command reads, if its channel is valid; none for any other command. -/
inductive ReadsAt (s : State) : Instr → RegAddr → Prop where
  | rdreg (a : RegAddr) : ReadsAt s (.rdreg a) a
  | busraw {c : Nat} (h : Valid c) : ReadsAt s (.busraw c) (BusRegister c)
  | shuntraw {c : Nat} (h : Valid c) : ReadsAt s (.shuntraw c) (ShuntRegister s.params.shuntBank c)
  | busv {c : Nat} (h : Valid c) : ReadsAt s (.busv c) (BusRegister c)
  | curma {c : Nat} (h : Valid c) : ReadsAt s (.curma c) (ShuntRegister s.params.shuntBank c)

/-! ### Words (30_encoding.md) -/

/-- The host issues `w` to a launched machine that no fault has stopped. -/
def Issues (s : State) (w : Command) : Prop :=
  launchOk s.params = true ∧ s.fault = none ∧ s.program[s.pc]? = some w

/-- The words of an operation code: those whose reserved fields are zero run the command, and the others raise
PreconditionError(ILLEGAL_COMMAND) (30_encoding.md R62, R64). -/
def CommandWords (op : Nat) (reservedZero : Command → Prop) (i : Command → Instr) : Prop :=
  ∀ (s : State) (w : Command), Issues s w → (w.extractLsb 31 28).toNat = op →
    (reservedZero w → step s = exec (i w) s) ∧
    (¬ reservedZero w → step s = .next (Raised s 4 .illegalCommand))

/-- ch, addr and data are zero (format N). -/
abbrev ReservedN (w : Command) : Prop := w.extractLsb 27 0 = 0

/-- ch and addr are zero (formats O and D). -/
abbrev ReservedD (w : Command) : Prop := w.extractLsb 27 24 = 0 ∧ w.extractLsb 23 16 = 0

/-- ch is zero (format A). -/
abbrev ReservedA (w : Command) : Prop := w.extractLsb 27 24 = 0

/-- ch and data are zero (format R). -/
abbrev ReservedR (w : Command) : Prop := w.extractLsb 27 24 = 0 ∧ w.extractLsb 15 0 = 0

/-- addr and data are zero (format C). -/
abbrev ReservedC (w : Command) : Prop := w.extractLsb 23 16 = 0 ∧ w.extractLsb 15 0 = 0

/-- The operand `ch` of a word. -/
def ChannelOf (w : Command) : Nat := (w.extractLsb 27 24).toNat

/-- A word is illegal: its op is unassigned, or a field reserved for its format is not zero (30_encoding.md R62,
R64). -/
def IllegalWord (w : Command) : Prop :=
  let op := (w.extractLsb 31 28).toNat
  op = 0x0 ∨ op = 0xE ∨ op = 0xF ∨ (op = 0x1 ∧ ¬ ReservedN w) ∨ (op = 0x5 ∧ ¬ ReservedA w) ∨
  (op = 0x6 ∧ ¬ ReservedR w) ∨ (op ∈ [0x2, 0x7, 0x8, 0xB] ∧ ¬ ReservedD w) ∨
  (op ∈ [0x3, 0x4, 0x9, 0xA, 0xC, 0xD] ∧ ¬ ReservedC w)

/-! ### A booted machine (70_reset_and_hazards.md section 2) -/

/-- No word of the list is an INIT or a WRREG at CONFIG. -/
def KeepsConfig (ws : List Command) : Prop :=
  ∀ w ∈ ws, ∀ i, decode w = .ok i → i ≠ .init ∧ ∀ v, i ≠ .wrreg 0x00 v

/-- The transport is the oracle, whatever draws it lists. -/
def OnOracle (s : State) : Prop := ∃ draws, s.transport = .oracle draws

/-- The machine has booted on the oracle, no fault has stopped it, and the commands it has still to run keep CONFIG as
it is; those it has run, the INIT among them, may be any. -/
structure Booted (s : State) : Prop where
  /-- No fault is set. -/
  fault : s.fault = none
  /-- A handle is open. -/
  handle : s.handleOpen = true
  /-- The device is Configured. -/
  config : s.cfgState = .configured
  /-- The transport is the oracle. -/
  oracle : OnOracle s
  /-- The commands from pc on neither initialize again nor write CONFIG. -/
  rest : KeepsConfig (s.program.drop s.pc)

/-! ### LOG and the mock -/

/-- The calls that a command which does not fault makes, given their answers (20_memory.md R52). -/
inductive CallsMade (s : State) : Instr → List LogEntry → Prop where
  | openFailed : CallsMade s .init [.openBus s.params.busId .fail]
  | opened (r : Ack) : CallsMade s .init
      [.openBus s.params.busId .ok, .write s.params.deviceAddr 0x00 2 [0x73, 0xFF] r]
  | write (a : RegAddr) (v : Word) (r : Ack) : CallsMade s (.wrreg a v)
      [.write s.params.deviceAddr a 2 [v.extractLsb 15 8, v.extractLsb 7 0] r]
  | read {i : Instr} {a : RegAddr} (h : ReadsAt s i a) (r : ReadAnswer) : CallsMade s i
      [.read s.params.deviceAddr a 2 r]
  | none {i : Instr} (hi : i ≠ .init) (hw : ∀ a v, i ≠ .wrreg a v) (hr : ∀ a, ¬ ReadsAt s i a) : CallsMade s i []

/-- The word that a command stores in the mock, and where: WRREG with a handle, and INIT without one, store where
every call they make is answered `ok` (20_memory.md R51). -/
def StoredBy (m : Mock) (s : State) : Instr → Option (RegAddr × Word)
  | .wrreg a v => if s.handleOpen = true ∧ s.calls + 1 ∉ m.fails then some (a, v) else none
  | .init =>
    if s.handleOpen = false ∧ s.calls + 1 ∉ m.fails ∧ s.calls + 2 ∉ m.fails then some (0x00, 0x73FF) else none
  | _ => none

/-! ### The assembler (30_encoding.md R67, R68) -/

/-- The line assembles to the word with the value `n`. -/
def AsmGives (line : AsmLine) (n : Nat) : Prop := ∃ w, assemble line = .ok w ∧ w.toNat = n

/-- The line is an assembly error. -/
def AsmFails (line : AsmLine) : Prop := ∃ e, assemble line = .error e

/-- A key's value is in its range. -/
def KeyLegal : CfgKey → Prop
  | .rst n => n < 2
  | .en cs => cs.Nodup ∧ ∀ c ∈ cs, Valid c
  | .avg n => n < 8
  | .bct n => n < 8
  | .sct n => n < 8
  | .mode n => n < 8

/-- What a key adds to the options vector. -/
def KeyValue : CfgKey → Nat
  | .rst n => n
  | .en cs => (cs.map fun c => 2 ^ c).sum
  | .avg n => n * 2 ^ 4
  | .bct n => n * 2 ^ 7
  | .sct n => n * 2 ^ 10
  | .mode n => n * 2 ^ 13

end Sys2Proof.Statement

open Sys2Proof Sys2Proof.Machine Sys2Proof.Config Sys2Proof.Safety Sys2Proof.Statement

/-! ### Encoding -/

/-- A few words of the spec's tables, one per command, decode to the commands they stand for. -/
def Obligations.SpecWordsDecodeToTheirCommands : Prop :=
  decode 0x10000000 = .ok .init ∧
  decode 0x2000FF9E = .ok (.cfg ⟨false, true, true, true, 1, 7, 7, 7⟩) ∧
  decode 0x32000000 = .ok (.busaddr 2) ∧
  decode 0x43000000 = .ok (.shuntaddr 3) ∧
  decode 0x500073FF = .ok (.wrreg 0x00 0x73FF) ∧
  decode 0x60020000 = .ok (.rdreg 0x02) ∧
  decode 0x700073FF = .ok (.enc16 0x73FF) ∧
  decode 0x8000FF9C = .ok (.dec16 0xFF 0x9C) ∧
  decode 0x91000000 = .ok (.busraw 1) ∧
  decode 0xA2000000 = .ok (.shuntraw 2) ∧
  decode 0xB00019C8 = .ok (.scalebus 0x19C8) ∧
  decode 0xC1000000 = .ok (.busv 1) ∧
  decode 0xDF000000 = .ok (.curma 15)

/-- Decoding an encoded command gives it back, for every command that has a word. -/
def Obligations.DecodeInvertsEncode : Prop :=
  ∀ i : Instr, i.wellFormed = true → decode (encode i) = .ok i

/-- Encoding a decoded command gives its word back, and a decoded command has a word: each legal word has one
meaning. -/
def Obligations.EncodeInvertsDecode : Prop :=
  ∀ (w : Command) (i : Instr), decode w = .ok i → encode i = w ∧ i.wellFormed = true

/-- 30_encoding.md R63: a word selects a row's command exactly when it has the row's match under the row's mask; the
operands are the fields of R61, CFG's the options of its data field. -/
def Obligations.DecodeFollowsOpcodeMap : Prop :=
  ∀ w : Command,
    (decode w = .ok .init ↔ w &&& 0xFFFFFFFF = 0x10000000) ∧
    (∀ o, decode w = .ok (.cfg o) ↔
      w &&& 0xFFFF0000 = 0x20000000 ∧ o = optionsOfVector (w.extractLsb 15 0)) ∧
    (∀ c, decode w = .ok (.busaddr c) ↔ w &&& 0xF0FFFFFF = 0x30000000 ∧ c = ChannelOf w) ∧
    (∀ c, decode w = .ok (.shuntaddr c) ↔ w &&& 0xF0FFFFFF = 0x40000000 ∧ c = ChannelOf w) ∧
    (∀ a v, decode w = .ok (.wrreg a v) ↔
      w &&& 0xFF000000 = 0x50000000 ∧ a = w.extractLsb 23 16 ∧ v = w.extractLsb 15 0) ∧
    (∀ a, decode w = .ok (.rdreg a) ↔ w &&& 0xFF00FFFF = 0x60000000 ∧ a = w.extractLsb 23 16) ∧
    (∀ v, decode w = .ok (.enc16 v) ↔ w &&& 0xFFFF0000 = 0x70000000 ∧ v = w.extractLsb 15 0) ∧
    (∀ b0 b1, decode w = .ok (.dec16 b0 b1) ↔
      w &&& 0xFFFF0000 = 0x80000000 ∧ b0 = w.extractLsb 15 8 ∧ b1 = w.extractLsb 7 0) ∧
    (∀ c, decode w = .ok (.busraw c) ↔ w &&& 0xF0FFFFFF = 0x90000000 ∧ c = ChannelOf w) ∧
    (∀ c, decode w = .ok (.shuntraw c) ↔ w &&& 0xF0FFFFFF = 0xA0000000 ∧ c = ChannelOf w) ∧
    (∀ v, decode w = .ok (.scalebus v) ↔ w &&& 0xFFFF0000 = 0xB0000000 ∧ v = w.extractLsb 15 0) ∧
    (∀ c, decode w = .ok (.busv c) ↔ w &&& 0xF0FFFFFF = 0xC0000000 ∧ c = ChannelOf w) ∧
    (∀ c, decode w = .ok (.curma c) ↔ w &&& 0xF0FFFFFF = 0xD0000000 ∧ c = ChannelOf w)

/-- 30_encoding.md R66: every 16-bit options vector is a CFG command's, and its bits are the options. -/
def Obligations.OptionsVectorCarriesTheOptions : Prop :=
  ∀ v : Word, ∃ o : CfgOptions, decode (0x20000000#32 ||| v.setWidth 32) = .ok (.cfg o) ∧
    o.reset = v.getLsbD 0 ∧ o.ch1 = v.getLsbD 1 ∧ o.ch2 = v.getLsbD 2 ∧ o.ch3 = v.getLsbD 3 ∧
    o.avg = v.extractLsb 6 4 ∧ o.busCt = v.extractLsb 9 7 ∧ o.shuntCt = v.extractLsb 12 10 ∧
    o.mode = v.extractLsb 15 13

/-- 30_encoding.md R64: an illegal word raises PreconditionError(ILLEGAL_COMMAND), with no call and no change but ERR,
ERRINFO, OUT and pc, before every other check; every other word runs the command it decodes to. -/
def Obligations.IllegalWordRaisesIllegalCommand : Prop :=
  ∀ (s : State) (w : Command), Issues s w →
    (IllegalWord w → step s = .next (Raised s 4 .illegalCommand)) ∧
    (¬ IllegalWord w → ∃ i, decode w = .ok i ∧ step s = exec i s)

/-! ### Steps and runs -/

/-- A step of a launched machine that no fault has stopped is the meaning of the command that its next word decodes
to; the command itself advances pc. -/
def Obligations.StepRunsDecodedInstruction : Prop :=
  ∀ (s : State) (w : Command) (i : Instr), Issues s w → decode w = .ok i → step s = exec i s

/-- 70_reset_and_hazards.md R161: a launch is refused exactly when DEVICE_ADDR is not 7 bits wide or SHUNT_R is not a
finite binary64 of at least 2^-1000 (SHUNT_BANK is one of its two settings by its type); the reset state has the
defaults. -/
def Obligations.LaunchOutOfRangeIsRefused : Prop :=
  (∀ s : State, step s = .refused .launchRefused ↔
    ¬ (s.params.deviceAddr ≤ 0x7F ∧ f64IsFinite s.params.shuntR = true ∧
      1 / 2 ^ 1000 ≤ f64Value s.params.shuntR)) ∧
  State.reset.params.deviceAddr = 0x40 ∧ State.reset.params.shuntR = 0x3FB999999999999A ∧
  State.reset.params.shuntBank = .corrected

/-- 10_state.md R37: the launch state. -/
def Obligations.ResetIsTheLaunchState : Prop :=
  State.reset.out = .none ∧ State.reset.err = 0 ∧ State.reset.errinfo = .none ∧ State.reset.pc = 0 ∧
  State.reset.handleOpen = false ∧ State.reset.cfgState = .unconfigured ∧ State.reset.fault = none ∧
  State.reset.log = []

/-- Once FAULT is set no command executes, pc does not advance, and FAULT is never cleared (60_exceptions.md R149).
That the step then answers the fault as an outcome is the model's choice (DESIGN CHOICE, entry 1), and that it does so
where the launch is in range is the model's inference (DEDUCED, entry 6). -/
def Obligations.FaultIsSticky : Prop :=
  ∀ (s : State) (f : Fault), s.fault = some f →
    (∀ t, step s ≠ .next t) ∧ (launchOk s.params = true → step s = .fault f) ∧ (∀ t, Steps s t → t = s)

/-- FAULT is none at reset; a step that sets it changes no other state, and then no step is taken (10_state.md R28).
That the step which sets FAULT answers a next state, and the one after it the fault as an outcome, is the model's
choice (DESIGN CHOICE, entry 1). -/
def Obligations.FaultChangesNothingElse : Prop :=
  State.reset.fault = none ∧
  ∀ (s t : State) (f : Fault), step s = .next t → t.fault = some f → t = FaultSet s f ∧ step t = .fault f

/-- 10_state.md R29: pc is 0 at reset, a command that does not fault advances it by 1 whether it succeeded or raised
an error, and the program ends at its length. -/
def Obligations.PcCountsCommands : Prop :=
  State.reset.pc = 0 ∧
  (∀ s t : State, step s = .next t → (t.fault = none → t.pc = s.pc + 1) ∧ (t.fault ≠ none → t.pc = s.pc)) ∧
  (∀ s : State, s.pc = s.program.length → ∀ t, step s ≠ .next t)

/-- Model's choice (entry 2): a step of a launched machine is refused as `programEnded` exactly where the program has
no command at pc. -/
def Obligations.EndedProgramIsRefused : Prop :=
  ∀ s : State, launchOk s.params = true → s.fault = none →
    (step s = .refused .programEnded ↔ s.program.length ≤ s.pc)

/-- Every run of a launched machine ends: some steps lead to a successful end or to a fault, and from there no step
follows. It rests on every transport call's returning an answer, which the model deduces (entry 16: DEDUCED, unsafe if
a transport could hang), and on the host's program being a list that ends (DESIGN CHOICE, entry 2). -/
def Obligations.EveryRunEndsOrFaults : Prop :=
  ∀ s : State, launchOk s.params = true → s.fault = none → s.pc ≤ s.program.length →
    ∃ t, Steps s t ∧ t.program = s.program ∧ (Succeeded t ∨ Faulted t) ∧ ∀ u, step t ≠ .next u

/-- On the oracle a booted machine never faults, whatever the oracle answers, while the commands still to run hold no
INIT and no WRREG at CONFIG: every step keeps `Booted`, and an INIT that succeeds brings it about where the rest of the
program is such (10_state.md R24, R25, 60_exceptions.md R145). -/
def Obligations.BootedProgramNeverFaults : Prop :=
  (∀ s t : State, Booted s → step s = .next t → Booted t) ∧
  (∀ s t : State, s.fault = none → s.handleOpen = false → OnOracle s → KeepsConfig (s.program.drop (s.pc + 1)) →
    exec .init s = .next t → t.err = 0 → Booted t)

/-! ### The configuration word builder -/

/-- 40_config_word.md R80: CFG returns the word with each option in its field, and changes OUT, ERR, ERRINFO and pc
only. -/
def Obligations.CfgBuildsTheConfigWord : Prop :=
  CommandWords 0x2 ReservedD (fun w => .cfg (optionsOfVector (w.extractLsb 15 0))) ∧
  (∀ (o : CfgOptions) (s : State), ∃ w : Word, exec (.cfg o) s = .next (Returned s (.w16 w)) ∧
    w.getLsbD 15 = o.reset ∧ w.getLsbD 14 = o.ch1 ∧ w.getLsbD 13 = o.ch2 ∧ w.getLsbD 12 = o.ch3 ∧
    w.extractLsb 11 9 = o.avg ∧ w.extractLsb 8 6 = o.busCt ∧ w.extractLsb 5 3 = o.shuntCt ∧
    w.extractLsb 2 0 = o.mode) ∧
  ∀ (v : Word) (s : State), ∃ w : Word, exec (.cfg (optionsOfVector v)) s = .next (Returned s (.w16 w)) ∧
    w.getLsbD 15 = v.getLsbD 0 ∧ w.getLsbD 14 = v.getLsbD 1 ∧ w.getLsbD 13 = v.getLsbD 2 ∧
    w.getLsbD 12 = v.getLsbD 3 ∧ w.extractLsb 11 9 = v.extractLsb 6 4 ∧ w.extractLsb 8 6 = v.extractLsb 9 7 ∧
    w.extractLsb 5 3 = v.extractLsb 12 10 ∧ w.extractLsb 2 0 = v.extractLsb 15 13

/-- CFG is a bijection between options vectors and words, and the default options give 0x73FF. -/
def Obligations.CfgIsABijection : Prop :=
  (∀ w : Word, ∃! v : Word, ∀ s : State, exec (.cfg (optionsOfVector v)) s = .next (Returned s (.w16 w))) ∧
  (∀ s : State, exec (.cfg (optionsOfVector 0xFF9E)) s = .next (Returned s (.w16 0x73FF)))

/-- 40_config_word.md R83: INIT, in each of its cases. -/
def Obligations.InitOpensAndConfigures : Prop :=
  CommandWords 0x1 ReservedN (fun _ => .init) ∧
  (∀ s : State, s.handleOpen = true → exec .init s = .next (FaultSet s .reinit)) ∧
  (∀ s : State, s.handleOpen = false → OpenAnswer s = .fail →
    exec .init s = .next (Raised (AfterOpen s .fail) 1 .openFailed)) ∧
  (∀ s o : State, s.handleOpen = false → OpenAnswer s = .ok → o = { AfterOpen s .ok with handleOpen := true } →
    WriteAnswer o 0x00 [0x73, 0xFF] = .fail →
    exec .init s =
      .next (Raised { AfterWrite o 0x00 [0x73, 0xFF] .fail with cfgState := .unconfigured } 2 .writeFailed)) ∧
  (∀ s o : State, s.handleOpen = false → OpenAnswer s = .ok → o = { AfterOpen s .ok with handleOpen := true } →
    WriteAnswer o 0x00 [0x73, 0xFF] = .ok →
    exec .init s =
      .next (Returned { AfterWrite o 0x00 [0x73, 0xFF] .ok with cfgState := .configured } .unit))

/-! ### The address calculator -/

/-- 41_address.md R90: every command that takes a channel other than 1, 2 and 3 raises BAD_CHANNEL, whatever the state
holds, and makes no call. -/
def Obligations.InvalidChannelRaisesBadChannel : Prop :=
  (∀ c : Nat, validCh c = true ↔ Valid c) ∧
  ∀ (s : State) (c : Nat), ¬ Valid c →
    exec (.busaddr c) s = .next (Raised s 4 (.badChannel c)) ∧
    exec (.shuntaddr c) s = .next (Raised s 4 (.badChannel c)) ∧
    exec (.busraw c) s = .next (Raised s 4 (.badChannel c)) ∧
    exec (.shuntraw c) s = .next (Raised s 4 (.badChannel c)) ∧
    exec (.busv c) s = .next (Raised s 4 (.badChannel c)) ∧
    exec (.curma c) s = .next (Raised s 4 (.badChannel c))

/-- 41_address.md R91, R93: BUSADDR. -/
def Obligations.BusaddrReturnsTheBusRegister : Prop :=
  CommandWords 0x3 ReservedC (fun w => .busaddr (ChannelOf w)) ∧
  (∀ (s : State) (c : Nat), Valid c → exec (.busaddr c) s = .next (Returned s (.a8 (BusRegister c)))) ∧
  (∀ (s : State) (c : Nat), ¬ Valid c → exec (.busaddr c) s = .next (Raised s 4 (.badChannel c))) ∧
  BusRegister 1 = 0x02 ∧ BusRegister 2 = 0x04 ∧ BusRegister 3 = 0x06

/-- 41_address.md R92, R94: SHUNTADDR, under each setting of SHUNT_BANK. -/
def Obligations.ShuntaddrFollowsTheBank : Prop :=
  CommandWords 0x4 ReservedC (fun w => .shuntaddr (ChannelOf w)) ∧
  (∀ (s : State) (c : Nat), Valid c →
    exec (.shuntaddr c) s = .next (Returned s (.a8 (ShuntRegister s.params.shuntBank c)))) ∧
  (∀ (s : State) (c : Nat), ¬ Valid c → exec (.shuntaddr c) s = .next (Raised s 4 (.badChannel c))) ∧
  ShuntRegister .corrected 1 = 0x01 ∧ ShuntRegister .corrected 2 = 0x03 ∧ ShuntRegister .corrected 3 = 0x05 ∧
  ShuntRegister .legacy 1 = 0x02 ∧ ShuntRegister .legacy 2 = 0x04 ∧ ShuntRegister .legacy 3 = 0x06

/-! ### The register codec -/

/-- 42_register_io.md R102, R104: WRREG, in each of its cases; every address is legal, in either cfg_state. -/
def Obligations.WrregWritesBigEndian : Prop :=
  CommandWords 0x5 ReservedA (fun w => .wrreg (w.extractLsb 23 16) (w.extractLsb 15 0)) ∧
  (∀ (s : State) (a : RegAddr) (v : Word), s.handleOpen = false →
    exec (.wrreg a v) s = .next (FaultSet s .noHandle)) ∧
  (∀ (s : State) (a : RegAddr) (v : Word) (bs : List Byte), s.handleOpen = true →
    bs = [v.extractLsb 15 8, v.extractLsb 7 0] → WriteAnswer s a bs = .fail →
    exec (.wrreg a v) s =
      .next (Raised { AfterWrite s a bs .fail with cfgState := CfgAfterWrite s.cfgState a v .fail } 2
        .writeFailed)) ∧
  (∀ (s : State) (a : RegAddr) (v : Word) (bs : List Byte), s.handleOpen = true →
    bs = [v.extractLsb 15 8, v.extractLsb 7 0] → WriteAnswer s a bs = .ok →
    exec (.wrreg a v) s =
      .next (Returned { AfterWrite s a bs .ok with cfgState := CfgAfterWrite s.cfgState a v .ok } .unit))

/-- 42_register_io.md R103, R105: RDREG, in each of its cases. -/
def Obligations.RdregFollowsReadRegister : Prop :=
  CommandWords 0x6 ReservedR (fun w => .rdreg (w.extractLsb 23 16)) ∧
  ∀ (s : State) (a : RegAddr), exec (.rdreg a) s = .next (ReadCommand s a .i)

/-- Every reading command completes on a read of exactly two bytes, with an open handle in the Configured state, and
returns its transform of the big-endian signed sample. -/
def Obligations.ReadsCompleteOnTwoBytes : Prop :=
  ∀ (s t : State) (a : RegAddr) (b0 b1 : Byte) (n : Int), s.handleOpen = true → s.cfgState = .configured →
    ReadAnswerTo s a = some (.bytes [b0, b1]) → t = AfterRead s a (.bytes [b0, b1]) → n = (b0 ++ b1).toInt →
    exec (.rdreg a) s = .next (Returned t (.i n)) ∧
    (∀ c, Valid c → a = BusRegister c → exec (.busraw c) s = .next (Returned t (.i (4 * (n / 8))))) ∧
    (∀ c, Valid c → a = ShuntRegister s.params.shuntBank c →
      exec (.shuntraw c) s = .next (Returned t (.i n))) ∧
    (∀ c, Valid c → a = BusRegister c →
      exec (.busv c) s = .next (Returned t (.f64 (f64Mul (f64OfInt (4 * (n / 8))) 0x3F50624DD2F1A9FC)))) ∧
    (∀ c, Valid c → a = ShuntRegister s.params.shuntBank c →
      exec (.curma c) s = .next (Returned t (.f64 (f64Div (f64OfInt n) s.params.shuntR))))

/-- 60_exceptions.md R143: a read that returns other than two bytes raises ProtocolError, and its bytes are never
returned. -/
def Obligations.WrongByteCountRaisesProtocolError : Prop :=
  ∀ (s : State) (i : Instr) (a : RegAddr) (bs : List Byte), ReadsAt s i a → s.handleOpen = true →
    s.cfgState = .configured → ReadAnswerTo s a = some (.bytes bs) → bs.length ≠ 2 →
    exec i s = .next (Raised (AfterRead s a (.bytes bs)) 3
      (if bs.length < 2 then .shortRead bs.length else .longRead bs.length))

/-- 42_register_io.md R106: ENC16, the most-significant byte first. -/
def Obligations.EncReturnsTheBytePair : Prop :=
  CommandWords 0x7 ReservedD (fun w => .enc16 (w.extractLsb 15 0)) ∧
  ∀ (v : Word) (s : State), exec (.enc16 v) s = .next (Returned s (.b2 (v.extractLsb 15 8) (v.extractLsb 7 0)))

/-- 42_register_io.md R107: DEC16, big-endian and signed. -/
def Obligations.DecReturnsTheSignedValue : Prop :=
  CommandWords 0x8 ReservedD (fun w => .dec16 (w.extractLsb 15 8) (w.extractLsb 7 0)) ∧
  ∀ (b0 b1 : Byte) (s : State), exec (.dec16 b0 b1) s = .next (Returned s (.i (SignedBigEndian [b0, b1])))

/-- Decoding the encoder's two bytes gives the value's signed reading, whose low 16 bits are the value. -/
def Obligations.DecodedBytesAreTheValue : Prop :=
  ∀ v : Word, dec16 (enc16 v).1 (enc16 v).2 = v.toInt ∧ trunc16 (dec16 (enc16 v).1 (enc16 v).2) = v

/-- The round trip on the mock: a write answered `ok` and then a read at the same address gives the value's signed
reading; where the write was of a reset word at CONFIG, the read faults instead, since the device is Unconfigured
(entry 15). -/
def Obligations.MockRoundTrip : Prop :=
  ∀ (s : State) (m : Mock) (a : RegAddr) (v : Word), s.transport = .mock m → s.handleOpen = true →
    s.cfgState = .configured → s.calls + 1 ∉ m.fails → s.calls + 2 ∉ m.fails →
    m.readBytes.lookup (s.calls + 2) = none →
    ∃ t, exec (.wrreg a v) s = .next t ∧ t.out = .unit ∧ t.err = 0 ∧
      (¬ (a = 0x00 ∧ v.getLsbD 15 = true) →
        ∃ u, exec (.rdreg a) t = .next u ∧ u.out = .i v.toInt ∧ u.err = 0 ∧ u.fault = s.fault) ∧
      (a = 0x00 ∧ v.getLsbD 15 = true → exec (.rdreg a) t = .next (FaultSet t .unconfigured))

/-! ### The scalers -/

/-- 43_scaler.md R122: BUSRAW. -/
def Obligations.BusrawScalesTheBusSample : Prop :=
  CommandWords 0x9 ReservedC (fun w => .busraw (ChannelOf w)) ∧
  (∀ (s : State) (c : Nat), Valid c →
    exec (.busraw c) s = .next (ReadCommand s (BusRegister c) fun v => .i (4 * (v / 8)))) ∧
  (∀ (s : State) (c : Nat), ¬ Valid c → exec (.busraw c) s = .next (Raised s 4 (.badChannel c)))

/-- 43_scaler.md R123, R130: SHUNTRAW, the sample unchanged. -/
def Obligations.ShuntrawReturnsTheShuntSample : Prop :=
  CommandWords 0xA ReservedC (fun w => .shuntraw (ChannelOf w)) ∧
  (∀ (s : State) (c : Nat), Valid c →
    exec (.shuntraw c) s = .next (ReadCommand s (ShuntRegister s.params.shuntBank c) fun v => .i v)) ∧
  (∀ (s : State) (c : Nat), ¬ Valid c → exec (.shuntraw c) s = .next (Raised s 4 (.badChannel c)))

/-- 43_scaler.md R120, R124: SCALEBUS on its own raw value. -/
def Obligations.ScalebusScalesItsOperand : Prop :=
  CommandWords 0xB ReservedD (fun w => .scalebus (w.extractLsb 15 0)) ∧
  ∀ (raw : Word) (s : State), exec (.scalebus raw) s = .next (Returned s (.i (4 * (raw.toInt / 8))))

/-- 43_scaler.md R126: BUSV, one product by the constant 0x3F50624DD2F1A9FC. -/
def Obligations.BusvMultipliesByTheConstant : Prop :=
  CommandWords 0xC ReservedC (fun w => .busv (ChannelOf w)) ∧
  (∀ (s : State) (c : Nat), Valid c →
    exec (.busv c) s = .next (ReadCommand s (BusRegister c) fun v =>
      .f64 (f64Mul (f64OfInt (4 * (v / 8))) 0x3F50624DD2F1A9FC))) ∧
  (∀ (s : State) (c : Nat), ¬ Valid c → exec (.busv c) s = .next (Raised s 4 (.badChannel c)))

/-- 43_scaler.md R128: CURMA, one quotient by SHUNT_R. -/
def Obligations.CurmaDividesByTheShunt : Prop :=
  CommandWords 0xD ReservedC (fun w => .curma (ChannelOf w)) ∧
  (∀ (s : State) (c : Nat), Valid c →
    exec (.curma c) s = .next (ReadCommand s (ShuntRegister s.params.shuntBank c) fun v =>
      .f64 (f64Div (f64OfInt v) s.params.shuntR))) ∧
  (∀ (s : State) (c : Nat), ¬ Valid c → exec (.curma c) s = .next (Raised s 4 (.badChannel c)))

/-- The laws of the bus scaler over the signed 16-bit samples. -/
def Obligations.BusScaleLaws : Prop :=
  (∀ v : Int, -32768 ≤ v → v ≤ 32767 →
    busScale v = 4 * (v / 8) ∧ 4 ∣ busScale v ∧ -16384 ≤ busScale v ∧ busScale v ≤ 16380 ∧
    busScale v = busScale (v - v % 8) ∧ ∀ w : Int, v ≤ w → busScale v ≤ busScale w) ∧
  busScale 32767 = 16380 ∧ busScale (-32768) = -16384 ∧ busScale (-1) = -4 ∧ busScale 7 = 0

/-- `f64(i)` is exact and +0 for 0, for every integer below 2^53 in magnitude. -/
def Obligations.IntegersConvertExactly : Prop :=
  ∀ i : Int, i.natAbs < 2 ^ 53 →
    f64IsFinite (f64OfInt i) = true ∧ f64Value (f64OfInt i) = i ∧ (f64Neg (f64OfInt i) = true ↔ i < 0)

/-- `f64mul` is the correctly rounded product, to nearest with ties to even, and has the product's sign (00_scope.md
R10). The format and the overflow to infinity are IEEE 754's, from general knowledge (PRESUMED, entry 9). -/
def Obligations.ProductIsCorrectlyRounded : Prop :=
  ∀ a b : F64, f64IsFinite a = true → f64IsFinite b = true →
    CorrectlyRounded (f64Value a * f64Value b) (f64Mul a b) ∧
    f64Neg (f64Mul a b) = (f64Neg a != f64Neg b)

/-- `f64div` is the correctly rounded quotient, to nearest with ties to even, and has the quotient's sign (00_scope.md
R10). The format and the overflow to infinity are IEEE 754's, from general knowledge (PRESUMED, entry 9). -/
def Obligations.QuotientIsCorrectlyRounded : Prop :=
  ∀ a b : F64, f64IsFinite a = true → f64IsFinite b = true → f64Value b ≠ 0 →
    CorrectlyRounded (f64Value a / f64Value b) (f64Div a b) ∧
    f64Neg (f64Div a b) = (f64Neg a != f64Neg b)

/-- With a legal SHUNT_R every current of a signed 16-bit sample is finite, is +0 exactly for 0, and is never -0. -/
def Obligations.CurrentIsFinite : Prop :=
  ∀ (r : F64) (s : Int), shuntROk r = true → -32768 ≤ s → s ≤ 32767 →
    f64IsFinite (current r s) = true ∧ (current r s = 0 ↔ s = 0) ∧ current r s ≠ 0x8000000000000000

/-- With the default SHUNT_R the current is ten times the sample, exactly. -/
def Obligations.DefaultCurrentIsTenfold : Prop :=
  ∀ s : Int, -32768 ≤ s → s ≤ 32767 → current 0x3FB999999999999A s = f64OfInt (10 * s)

/-- Every bus voltage of a signed 16-bit sample is finite, is +0 exactly for 0 mV, and is never -0. -/
def Obligations.BusVoltsAreFinite : Prop :=
  ∀ v : Int, -32768 ≤ v → v ≤ 32767 →
    f64IsFinite (busVolts (busScale v)) = true ∧ (busVolts (busScale v) = 0 ↔ busScale v = 0) ∧
    busVolts (busScale v) ≠ 0x8000000000000000

/-! ### State that every command keeps or changes by rule -/

/-- 60_exceptions.md R145: each model fault is raised exactly by the commands and in the states of its row, in the
order of R148. -/
def Obligations.FaultsAreRaisedExactlyWhenStated : Prop :=
  ∀ (i : Instr) (s t : State), s.fault = none → exec i s = .next t →
    (t.fault = some .noHandle ↔
      s.handleOpen = false ∧ ((∃ a v, i = .wrreg a v) ∨ ∃ a, ReadsAt s i a)) ∧
    (t.fault = some .unconfigured ↔
      s.handleOpen = true ∧ s.cfgState = .unconfigured ∧ ∃ a, ReadsAt s i a) ∧
    (t.fault = some .reinit ↔ s.handleOpen = true ∧ i = .init) ∧
    (t.fault = some .mockUnwritten ↔
      s.handleOpen = true ∧ s.cfgState = .configured ∧
        ∃ a m, ReadsAt s i a ∧ s.transport = .mock m ∧ m.regs.read a.toNat = none)

/-- 10_state.md R22, R23: after a step without a fault, ERR and ERRINFO are a success's, or those of the error whose
cause the last call of LOG or the command word shows, and then OUT holds no value. -/
def Obligations.ErrorsRecordKindAndDiagnostic : Prop :=
  State.reset.err = 0 ∧ State.reset.errinfo = .none ∧
  ∀ s t : State, step s = .next t → t.fault = none →
    (t.err = 0 ∧ t.errinfo = .none ∧ t.out ≠ .none) ∨
    (t.out = .none ∧
      ((t.err = 1 ∧ t.errinfo = .openFailed ∧ t.log.getLast? = some (.openBus s.params.busId .fail)) ∨
       (t.err = 2 ∧ t.errinfo = .writeFailed ∧
         ∃ a bs, t.log.getLast? = some (.write s.params.deviceAddr a 2 bs .fail)) ∨
       (t.err = 2 ∧ t.errinfo = .readFailed ∧ ∃ a, t.log.getLast? = some (.read s.params.deviceAddr a 2 .fail)) ∨
       (t.err = 3 ∧ ∃ a bs, t.log.getLast? = some (.read s.params.deviceAddr a 2 (.bytes bs)) ∧
         ((bs.length < 2 ∧ t.errinfo = .shortRead bs.length) ∨
          (2 < bs.length ∧ t.errinfo = .longRead bs.length))) ∨
       (t.err = 4 ∧ ∃ w, s.program[s.pc]? = some w ∧
         ((IllegalWord w ∧ t.errinfo = .illegalCommand) ∨
          (¬ IllegalWord w ∧ ¬ Valid (ChannelOf w) ∧ t.errinfo = .badChannel (ChannelOf w))))))

/-- 10_state.md R24: handle_open is false at reset; only a successful `Open` in INIT sets it, and nothing clears it. -/
def Obligations.OnlyInitOpensTheHandle : Prop :=
  State.reset.handleOpen = false ∧
  (∀ (i : Instr) (s t : State), exec i s = .next t →
    (s.handleOpen = true → t.handleOpen = true) ∧
    (s.handleOpen = false →
      (t.handleOpen = true ↔ i = .init ∧ OpenAnswer s = .ok))) ∧
  ∀ s t : State, step s = .next t → t.handleOpen ≠ s.handleOpen →
    s.handleOpen = false ∧ s.program[s.pc]? = some 0x10000000

/-- 10_state.md R25: cfg_state is Unconfigured at reset, and a command changes it only by the calls it makes at 0x00,
by the rule's table. -/
def Obligations.CfgStateFollowsConfigWrites : Prop :=
  State.reset.cfgState = .unconfigured ∧
  ∀ (i : Instr) (s t : State), exec i s = .next t →
    ∃ made, t.log = s.log ++ made ∧ t.cfgState = made.foldl cfgAfterEntry s.cfgState

/-- 10_state.md R30: LOG is empty at reset; a command appends its calls to it and never reads it: with any other LOG
the command does the same and appends the same. -/
def Obligations.LogIsAppendedAndNeverRead : Prop :=
  State.reset.log = [] ∧
  ∀ (i : Instr) (s t : State) (l : List LogEntry), exec i s = .next t →
    ∃ made, t.log = s.log ++ made ∧ exec i { s with log := l } = .next { t with log := l ++ made }

/-- Each command makes the transport calls that the spec fixes for it, in order, with their addresses and bytes, and
a command that faults makes none. -/
def Obligations.CommandsMakeTheirCalls : Prop :=
  ∀ (i : Instr) (s t : State), s.fault = none → exec i s = .next t →
    ∃ made, t.log = s.log ++ made ∧ t.calls = s.calls + made.length ∧
      (t.fault = none → CallsMade s i made) ∧ (t.fault ≠ none → made = [])

/-- 20_memory.md R45: every transfer a command makes is of exactly two bytes. -/
def Obligations.TransfersAreTwoBytes : Prop :=
  ∀ (i : Instr) (s t : State), exec i s = .next t →
    ∃ made, t.log = s.log ++ made ∧
      (∀ d a n bs r, LogEntry.write d a n bs r ∈ made → n = 2 ∧ bs.length = 2) ∧
      (∀ d a n r, LogEntry.read d a n r ∈ made → n = 2)

/-- No command changes the commands that the host will issue (20_memory.md R55), or the launch parameters of
00_scope.md R7: that no step changes a parameter is the model's inference (DEDUCED, entry 6). -/
def Obligations.CommandsNeverChange : Prop :=
  ∀ (i : Instr) (s t : State), exec i s = .next t → t.program = s.program ∧ t.params = s.params

/-! ### The transport -/

/-- The oracle answers every call, and each listed draw answers one call, of whatever kind, as it says; every answer
to a read is some draw's (entries 3 and 4). -/
def Obligations.OracleAnswersWithItsDraws : Prop :=
  (∀ (s : State) (d : Draw) (ds : List Draw) (a : RegAddr) (bs : List Byte), s.transport = .oracle (d :: ds) →
    OpenAnswer s = d.ack ∧ WriteAnswer s a bs = d.ack ∧
    ReadAnswerTo s a = some (if d.ack = .ok then .bytes d.bytes else .fail) ∧
    transportAfterCall s.transport = .oracle ds ∧
    (∀ r, transportAfterWrite s.transport a bs r = .oracle ds)) ∧
  (∀ (s : State) (ds : List Draw) (a : RegAddr), s.transport = .oracle ds → ∃ r, ReadAnswerTo s a = some r) ∧
  (∀ r : ReadAnswer, ∃ d : Draw, r = if d.ack = .ok then .bytes d.bytes else .fail)

/-- 20_memory.md R51: the mock. -/
def Obligations.MockAnswersFromItsMap : Prop :=
  (∀ (s : State) (m : Mock) (a : RegAddr) (bs : List Byte), s.transport = .mock m →
    OpenAnswer s = (if s.calls + 1 ∈ m.fails then .fail else .ok) ∧
    WriteAnswer s a bs = (if s.calls + 1 ∈ m.fails then .fail else .ok)) ∧
  (∀ (m : Mock) (a : RegAddr) (b0 b1 : Byte), ∃ m', transportAfterWrite (.mock m) a [b0, b1] .ok = .mock m' ∧
    m'.regs.read a.toNat = some (b0 ++ b1) ∧ ∀ b, b ≠ a.toNat → m'.regs.read b = m.regs.read b) ∧
  (∀ (m : Mock) (a : RegAddr) (bs : List Byte), transportAfterWrite (.mock m) a bs .fail = .mock m) ∧
  (∀ (s : State) (m : Mock) (a : RegAddr) (w : Word), s.transport = .mock m → m.regs.read a.toNat = some w →
    ReadAnswerTo s a = some (if s.calls + 1 ∈ m.fails then .fail
      else .bytes ((m.readBytes.lookup (s.calls + 1)).getD [w.extractLsb 15 8, w.extractLsb 7 0]))) ∧
  (∀ (s : State) (m : Mock) (a : RegAddr), s.transport = .mock m → m.regs.read a.toNat = none →
    ReadAnswerTo s a = none ∧
    (s.handleOpen = true → s.cfgState = .configured → exec (.rdreg a) s = .next (FaultSet s .mockUnwritten)))

/-- The frame of the mock's map: a command stores at most the one word of `StoredBy`, and every other address reads
as before. -/
def Obligations.OnlyWritesChangeTheMockMap : Prop :=
  ∀ (i : Instr) (s t : State) (m : Mock), s.transport = .mock m → exec i s = .next t →
    ∃ m', t.transport = .mock m' ∧ m'.fails = m.fails ∧ m'.readBytes = m.readBytes ∧
      (∀ b w, StoredBy m s i = some (b, w) → m'.regs.read b.toNat = some w) ∧
      (∀ a, (∀ b w, StoredBy m s i = some (b, w) → a ≠ b.toNat) → m'.regs.read a = m.regs.read a)

/-- Reads are not idempotent: two reads of one address can return any two values. -/
def Obligations.ReadsAreNotIdempotent : Prop :=
  ∀ (a : RegAddr) (v w : Word), ∃ s t u : State, launchOk s.params = true ∧ s.fault = none ∧
    exec (.rdreg a) s = .next t ∧ t.out = .i v.toInt ∧ exec (.rdreg a) t = .next u ∧ u.out = .i w.toInt

/-! ### Invariants -/

/-- The invariant holds at reset. -/
def Obligations.InvariantHoldsAtReset : Prop := Inv State.reset

/-- Every step keeps the invariant. -/
def Obligations.StepKeepsTheInvariant : Prop := ∀ s t : State, Inv s → step s = .next t → Inv t

/-! ### The assembler -/

/-- The forms of the assembler and their encodings; an operand out of its field's range is an error. -/
def Obligations.AssemblerEncodesItsForms : Prop :=
  AsmGives .init 0x10000000 ∧
  (∀ c, c < 16 →
    AsmGives (.busaddr c) (0x30000000 + c * 2 ^ 24) ∧ AsmGives (.shuntaddr c) (0x40000000 + c * 2 ^ 24) ∧
    AsmGives (.busraw c) (0x90000000 + c * 2 ^ 24) ∧ AsmGives (.shuntraw c) (0xA0000000 + c * 2 ^ 24) ∧
    AsmGives (.busv c) (0xC0000000 + c * 2 ^ 24) ∧ AsmGives (.curma c) (0xD0000000 + c * 2 ^ 24)) ∧
  (∀ c, 16 ≤ c →
    AsmFails (.busaddr c) ∧ AsmFails (.shuntaddr c) ∧ AsmFails (.busraw c) ∧ AsmFails (.shuntraw c) ∧
    AsmFails (.busv c) ∧ AsmFails (.curma c)) ∧
  (∀ a, a < 256 → AsmGives (.rdreg a) (0x60000000 + a * 2 ^ 16)) ∧
  (∀ a, 256 ≤ a → AsmFails (.rdreg a) ∧ ∀ v, AsmFails (.wrreg a v)) ∧
  (∀ v : Int, -32768 ≤ v → v < 65536 →
    (∀ a, a < 256 → AsmGives (.wrreg a v) (0x50000000 + a * 2 ^ 16 + (v % 65536).toNat)) ∧
    AsmGives (.enc16 v) (0x70000000 + (v % 65536).toNat) ∧
    AsmGives (.scalebus v) (0xB0000000 + (v % 65536).toNat)) ∧
  (∀ v : Int, v < -32768 ∨ 65536 ≤ v → (∀ a, AsmFails (.wrreg a v)) ∧ AsmFails (.enc16 v) ∧ AsmFails (.scalebus v)) ∧
  (∀ b0 b1, b0 < 256 → b1 < 256 → AsmGives (.dec16 b0 b1) (0x80000000 + b0 * 2 ^ 8 + b1)) ∧
  (∀ b0 b1, 256 ≤ b0 ∨ 256 ≤ b1 → AsmFails (.dec16 b0 b1))

/-- 30_encoding.md R68: the keys of CFG, each at most once and in its range, add up to the options vector; anything
else is an error. -/
def Obligations.CfgKeysAddUpToTheVector : Prop :=
  ∀ ks : List CfgKey,
    (ks.Pairwise (fun k k' => sameKey k k' = false) ∧ (∀ k ∈ ks, KeyLegal k) →
      AsmGives (.cfg ks) (0x20000000 + (ks.map KeyValue).sum)) ∧
    (¬ (ks.Pairwise (fun k k' => sameKey k k' = false) ∧ ∀ k ∈ ks, KeyLegal k) → AsmFails (.cfg ks))

/-- 30_encoding.md R69: the pseudo-instructions. -/
def Obligations.PseudoInstructionsExpand : Prop :=
  assemble .cfgdef = assemble (.cfg [.en [1, 2, 3], .avg 1, .bct 7, .sct 7, .mode 7]) ∧
  assemble .cfgdef = .ok 0x2000FF9E ∧
  (∀ (ks : List CfgKey) (o : CfgOptions), asmOptions ks = .ok o →
    assemble (.wrcfg ks) = assemble (.wrreg 0x00 (configure o).toNat)) ∧
  (∀ (ks : List CfgKey) (e : AsmError), asmOptions ks = .error e → assemble (.wrcfg ks) = .error e) ∧
  assemble (.wrcfg [.en [1, 2, 3], .avg 1, .bct 7, .sct 7, .mode 7]) = .ok 0x500073FF ∧
  assemble .resetdev = assemble (.wrreg 0x00 0x8000) ∧ assemble .resetdev = .ok 0x50008000

/-- The assembler writes legal words only: what it writes decodes to the command it meant. -/
def Obligations.AssembledWordsDecode : Prop :=
  ∀ (line : AsmLine) (w : Command), assemble line = .ok w →
    ∃ i, asmInstr line = .ok i ∧ decode w = .ok i

/-! ### Several instances -/

/-- Instances share no state: a step of one is its own step, and leaves every other as it is. -/
def Obligations.InstancesAreIndependent : Prop :=
  ∀ (instances after : List State) (k : Nat), stepInstance instances k = some after →
    after.length = instances.length ∧ (∀ j, j ≠ k → after[j]? = instances[j]?) ∧
    ∃ s t, instances[k]? = some s ∧ step s = .next t ∧ after[k]? = some t
end

