-- ==== Sys2Proof/Laws/Encoding.lean ====
section
/-! SUPPORT. The fields of a command word. -/

namespace Sys2Proof

/-- The four fields of a command word read back as they were put in. -/
@[simp] theorem opField_commandWord (op : Op) (ch : BitVec 4) (addr : RegAddr) (data : Word) :
    opField (commandWord op ch addr data) = opCode op := by
  apply BitVec.eq_of_getLsbD_eq
  intro i hi
  interval_cases i <;> simp [opField, commandWord]

@[simp] theorem chField_commandWord (op : Op) (ch : BitVec 4) (addr : RegAddr) (data : Word) :
    chField (commandWord op ch addr data) = ch := by
  apply BitVec.eq_of_getLsbD_eq
  intro i hi
  interval_cases i <;> simp [chField, commandWord]

@[simp] theorem addrField_commandWord (op : Op) (ch : BitVec 4) (addr : RegAddr) (data : Word) :
    addrField (commandWord op ch addr data) = addr := by
  apply BitVec.eq_of_getLsbD_eq
  intro i hi
  interval_cases i <;> simp [addrField, commandWord]

@[simp] theorem dataField_commandWord (op : Op) (ch : BitVec 4) (addr : RegAddr) (data : Word) :
    dataField (commandWord op ch addr data) = data := by
  apply BitVec.eq_of_getLsbD_eq
  intro i hi
  interval_cases i <;> simp [dataField, commandWord]

/-- The row that an operation code selects is the one with that code. -/
@[simp] theorem opOfCode_opCode (op : Op) : opOfCode (opCode op) = some op := by cases op <;> rfl

/-- Each row's `match` column is its operation code in bits 31:28 and zeros. -/
theorem opMatch_eq (op : Op) : opMatch op = commandWord op 0 0 0 := by cases op <;> decide

/-- A mask over all of `op` keeps, of each other field, what the mask has there. -/
theorem commandWord_and (op : Op) (ch : BitVec 4) (addr : RegAddr) (data : Word) (mask : Command)
    (hm : opField mask = 0xF) :
    commandWord op ch addr data &&& mask =
      commandWord op (ch &&& chField mask) (addr &&& addrField mask) (data &&& dataField mask) := by
  have h28 : mask[28] = true := by simpa [opField] using congrArg (fun b => b.getLsbD 0) hm
  have h29 : mask[29] = true := by simpa [opField] using congrArg (fun b => b.getLsbD 1) hm
  have h30 : mask[30] = true := by simpa [opField] using congrArg (fun b => b.getLsbD 2) hm
  have h31 : mask[31] = true := by simpa [opField] using congrArg (fun b => b.getLsbD 3) hm
  apply BitVec.eq_of_getLsbD_eq
  intro i hi
  interval_cases i <;> simp [commandWord, chField, addrField, dataField, h28, h29, h30, h31]

end Sys2Proof
end

