-- ==== Sys2Proof/Laws/Memory.lean ====
section
/-! SUPPORT. The laws of the mock's map: a read after a write, and the canonical form that every write keeps. -/

namespace Sys2Proof.Machine

theorem Memory.read_write_same (m : Memory) (a : Nat) (w : Word) : (m.write a w).read a = some w := by
  induction m with
  | nil => simp [Memory.write, Memory.read]
  | cons e m ih =>
    obtain ⟨b, v⟩ := e
    by_cases h1 : a < b
    · simp [Memory.write, h1, Memory.read]
    · by_cases h2 : a = b
      · simp [Memory.write, h2, Memory.read]
      · simp [Memory.write, h1, h2, Memory.read, Ne.symm h2, ih]

theorem Memory.read_write_other (m : Memory) {a b : Nat} (w : Word) (h : b ≠ a) :
    (m.write a w).read b = m.read b := by
  induction m with
  | nil => simp [Memory.write, Memory.read, Ne.symm h]
  | cons e m ih =>
    obtain ⟨c, v⟩ := e
    by_cases h1 : a < c
    · simp [Memory.write, h1, Memory.read, Ne.symm h]
    · by_cases h2 : a = c
      · subst h2
        simp [Memory.write, Memory.read, Ne.symm h]
      · by_cases h3 : c = b
        · subst h3
          simp [Memory.write, h1, h2, Memory.read]
        · simp [Memory.write, h1, h2, Memory.read, h3, ih]

/-- One read law for both cases: a write changes what its own address reads as, and nothing else. -/
theorem Memory.read_write (m : Memory) (a b : Nat) (w : Word) :
    (m.write a w).read b = if b = a then some w else m.read b := by
  by_cases h : b = a
  · simp [h, Memory.read_write_same]
  · simp [h, Memory.read_write_other]

/-- A write above a bound keeps the canonical form above that bound. -/
theorem Memory.write_wfAbove (m : Memory) {lo : Option Nat} {a : Nat} (w : Word) (ha : a < 256)
    (hlo : ∀ b ∈ lo, b < a) (h : Memory.wfAbove lo m = true) : Memory.wfAbove lo (m.write a w) = true := by
  have hlo' : (lo.all fun b => decide (b < a)) = true := by
    cases lo with
    | none => rfl
    | some b => simpa using hlo b rfl
  induction m generalizing lo with
  | nil => simp [Memory.write, Memory.wfAbove, ha, hlo']
  | cons e m ih =>
    obtain ⟨c, v⟩ := e
    simp only [Memory.wfAbove, Bool.and_eq_true, decide_eq_true_eq] at h
    obtain ⟨⟨hc, hc'⟩, hm⟩ := h
    by_cases h1 : a < c
    · simp [Memory.write, h1, Memory.wfAbove, ha, hc', hm, hlo']
    · by_cases h2 : a = c
      · subst h2
        simp [Memory.write, Memory.wfAbove, ha, hm, hlo']
      · have hca : c < a := by omega
        have hm' := ih (lo := some c) (fun b hb => by cases hb; exact hca) hm (by simpa using hca)
        simp [Memory.write, h1, h2, Memory.wfAbove, hc', hm', hc]

/-- Every write of an 8-bit address keeps the canonical form. -/
theorem Memory.write_wf (m : Memory) {a : Nat} (w : Word) (ha : a < 256) (h : m.wf = true) :
    (m.write a w).wf = true :=
  Memory.write_wfAbove m w ha (by simp) h

/-- An address the map lists no word for, and nothing else, holds no value: 256 and above hold none. -/
theorem Memory.read_none_of_wf (m : Memory) {lo : Option Nat} {a : Nat} (h : Memory.wfAbove lo m = true)
    (ha : 256 ≤ a) : m.read a = none := by
  induction m generalizing lo with
  | nil => rfl
  | cons e m ih =>
    obtain ⟨c, v⟩ := e
    simp only [Memory.wfAbove, Bool.and_eq_true, decide_eq_true_eq] at h
    have hne : c ≠ a := by omega
    simp [Memory.read, hne, ih h.2]

/-- The map of the machine after reset lists nothing: the empty map has the canonical form. -/
theorem Memory.wf_nil : Memory.wf [] = true := rfl

end Sys2Proof.Machine
end

