-- ==== Sys2Proof/Laws/State.lean ====
section
/-! SUPPORT. One lemma per field per update of the state, so that no proof unfolds a record update. -/

namespace Sys2Proof.Machine

open Sys2Proof.Config

@[simp] theorem State.returnValue_params (s : State) (v : Out) : (s.returnValue v).params = s.params := rfl
@[simp] theorem State.returnValue_program (s : State) (v : Out) : (s.returnValue v).program = s.program := rfl
@[simp] theorem State.returnValue_out (s : State) (v : Out) : (s.returnValue v).out = v := rfl
@[simp] theorem State.returnValue_err (s : State) (v : Out) : (s.returnValue v).err = 0 := rfl
@[simp] theorem State.returnValue_errinfo (s : State) (v : Out) : (s.returnValue v).errinfo = .none := rfl
@[simp] theorem State.returnValue_pc (s : State) (v : Out) : (s.returnValue v).pc = s.pc + 1 := rfl
@[simp] theorem State.returnValue_handleOpen (s : State) (v : Out) : (s.returnValue v).handleOpen = s.handleOpen := rfl
@[simp] theorem State.returnValue_cfgState (s : State) (v : Out) : (s.returnValue v).cfgState = s.cfgState := rfl
@[simp] theorem State.returnValue_fault (s : State) (v : Out) : (s.returnValue v).fault = s.fault := rfl
@[simp] theorem State.returnValue_log (s : State) (v : Out) : (s.returnValue v).log = s.log := rfl
@[simp] theorem State.returnValue_transport (s : State) (v : Out) : (s.returnValue v).transport = s.transport := rfl
@[simp] theorem State.returnValue_calls (s : State) (v : Out) : (s.returnValue v).calls = s.calls := rfl

@[simp] theorem State.raise_params (s : State) (k : ErrKind) (i : ErrInfo) : (s.raise k i).params = s.params := rfl
@[simp] theorem State.raise_program (s : State) (k : ErrKind) (i : ErrInfo) : (s.raise k i).program = s.program := rfl
@[simp] theorem State.raise_out (s : State) (k : ErrKind) (i : ErrInfo) : (s.raise k i).out = .none := rfl
@[simp] theorem State.raise_err (s : State) (k : ErrKind) (i : ErrInfo) : (s.raise k i).err = errCode k := rfl
@[simp] theorem State.raise_errinfo (s : State) (k : ErrKind) (i : ErrInfo) : (s.raise k i).errinfo = i := rfl
@[simp] theorem State.raise_pc (s : State) (k : ErrKind) (i : ErrInfo) : (s.raise k i).pc = s.pc + 1 := rfl
@[simp] theorem State.raise_handleOpen (s : State) (k : ErrKind) (i : ErrInfo) : (s.raise k i).handleOpen = s.handleOpen := rfl
@[simp] theorem State.raise_cfgState (s : State) (k : ErrKind) (i : ErrInfo) : (s.raise k i).cfgState = s.cfgState := rfl
@[simp] theorem State.raise_fault (s : State) (k : ErrKind) (i : ErrInfo) : (s.raise k i).fault = s.fault := rfl
@[simp] theorem State.raise_log (s : State) (k : ErrKind) (i : ErrInfo) : (s.raise k i).log = s.log := rfl
@[simp] theorem State.raise_transport (s : State) (k : ErrKind) (i : ErrInfo) : (s.raise k i).transport = s.transport := rfl
@[simp] theorem State.raise_calls (s : State) (k : ErrKind) (i : ErrInfo) : (s.raise k i).calls = s.calls := rfl

@[simp] theorem State.takeFault_params (s : State) (f : Fault) : (s.takeFault f).params = s.params := rfl
@[simp] theorem State.takeFault_program (s : State) (f : Fault) : (s.takeFault f).program = s.program := rfl
@[simp] theorem State.takeFault_out (s : State) (f : Fault) : (s.takeFault f).out = s.out := rfl
@[simp] theorem State.takeFault_err (s : State) (f : Fault) : (s.takeFault f).err = s.err := rfl
@[simp] theorem State.takeFault_errinfo (s : State) (f : Fault) : (s.takeFault f).errinfo = s.errinfo := rfl
@[simp] theorem State.takeFault_pc (s : State) (f : Fault) : (s.takeFault f).pc = s.pc := rfl
@[simp] theorem State.takeFault_handleOpen (s : State) (f : Fault) : (s.takeFault f).handleOpen = s.handleOpen := rfl
@[simp] theorem State.takeFault_cfgState (s : State) (f : Fault) : (s.takeFault f).cfgState = s.cfgState := rfl
@[simp] theorem State.takeFault_fault (s : State) (f : Fault) : (s.takeFault f).fault = some f := rfl
@[simp] theorem State.takeFault_log (s : State) (f : Fault) : (s.takeFault f).log = s.log := rfl
@[simp] theorem State.takeFault_transport (s : State) (f : Fault) : (s.takeFault f).transport = s.transport := rfl
@[simp] theorem State.takeFault_calls (s : State) (f : Fault) : (s.takeFault f).calls = s.calls := rfl

@[simp] theorem State.logCall_params (s : State) (e : LogEntry) (t : Transport) : (s.logCall e t).params = s.params := rfl
@[simp] theorem State.logCall_program (s : State) (e : LogEntry) (t : Transport) : (s.logCall e t).program = s.program := rfl
@[simp] theorem State.logCall_out (s : State) (e : LogEntry) (t : Transport) : (s.logCall e t).out = s.out := rfl
@[simp] theorem State.logCall_err (s : State) (e : LogEntry) (t : Transport) : (s.logCall e t).err = s.err := rfl
@[simp] theorem State.logCall_errinfo (s : State) (e : LogEntry) (t : Transport) : (s.logCall e t).errinfo = s.errinfo := rfl
@[simp] theorem State.logCall_pc (s : State) (e : LogEntry) (t : Transport) : (s.logCall e t).pc = s.pc := rfl
@[simp] theorem State.logCall_handleOpen (s : State) (e : LogEntry) (t : Transport) : (s.logCall e t).handleOpen = s.handleOpen := rfl
@[simp] theorem State.logCall_cfgState (s : State) (e : LogEntry) (t : Transport) : (s.logCall e t).cfgState = s.cfgState := rfl
@[simp] theorem State.logCall_fault (s : State) (e : LogEntry) (t : Transport) : (s.logCall e t).fault = s.fault := rfl
@[simp] theorem State.logCall_log (s : State) (e : LogEntry) (t : Transport) : (s.logCall e t).log = s.log ++ [e] := rfl
@[simp] theorem State.logCall_transport (s : State) (e : LogEntry) (t : Transport) : (s.logCall e t).transport = t := rfl
@[simp] theorem State.logCall_calls (s : State) (e : LogEntry) (t : Transport) : (s.logCall e t).calls = s.calls + 1 := rfl

@[simp] theorem State.noteWrite_params (s : State) (a : RegAddr) (v : Word) (r : Ack) :
    (s.noteWrite a v r).params = s.params := by
  unfold State.noteWrite; split <;> [cases r <;> rfl; rfl]
@[simp] theorem State.noteWrite_program (s : State) (a : RegAddr) (v : Word) (r : Ack) :
    (s.noteWrite a v r).program = s.program := by
  unfold State.noteWrite; split <;> [cases r <;> rfl; rfl]
@[simp] theorem State.noteWrite_out (s : State) (a : RegAddr) (v : Word) (r : Ack) :
    (s.noteWrite a v r).out = s.out := by
  unfold State.noteWrite; split <;> [cases r <;> rfl; rfl]
@[simp] theorem State.noteWrite_err (s : State) (a : RegAddr) (v : Word) (r : Ack) :
    (s.noteWrite a v r).err = s.err := by
  unfold State.noteWrite; split <;> [cases r <;> rfl; rfl]
@[simp] theorem State.noteWrite_errinfo (s : State) (a : RegAddr) (v : Word) (r : Ack) :
    (s.noteWrite a v r).errinfo = s.errinfo := by
  unfold State.noteWrite; split <;> [cases r <;> rfl; rfl]
@[simp] theorem State.noteWrite_pc (s : State) (a : RegAddr) (v : Word) (r : Ack) :
    (s.noteWrite a v r).pc = s.pc := by
  unfold State.noteWrite; split <;> [cases r <;> rfl; rfl]
@[simp] theorem State.noteWrite_handleOpen (s : State) (a : RegAddr) (v : Word) (r : Ack) :
    (s.noteWrite a v r).handleOpen = s.handleOpen := by
  unfold State.noteWrite; split <;> [cases r <;> rfl; rfl]
@[simp] theorem State.noteWrite_fault (s : State) (a : RegAddr) (v : Word) (r : Ack) :
    (s.noteWrite a v r).fault = s.fault := by
  unfold State.noteWrite; split <;> [cases r <;> rfl; rfl]
@[simp] theorem State.noteWrite_log (s : State) (a : RegAddr) (v : Word) (r : Ack) :
    (s.noteWrite a v r).log = s.log := by
  unfold State.noteWrite; split <;> [cases r <;> rfl; rfl]
@[simp] theorem State.noteWrite_transport (s : State) (a : RegAddr) (v : Word) (r : Ack) :
    (s.noteWrite a v r).transport = s.transport := by
  unfold State.noteWrite; split <;> [cases r <;> rfl; rfl]
@[simp] theorem State.noteWrite_calls (s : State) (a : RegAddr) (v : Word) (r : Ack) :
    (s.noteWrite a v r).calls = s.calls := by
  unfold State.noteWrite; split <;> [cases r <;> rfl; rfl]

/-- A write at CONFIG_ADDR makes cfg_state what the table of 10_state.md R25 says. -/
theorem State.noteWrite_cfgState_config (s : State) (v : Word) (r : Ack) :
    (s.noteWrite configAddr v r).cfgState =
      match r with
      | .fail => .unconfigured
      | .ok => if configRst v then .unconfigured else .configured := by
  cases r <;> simp [State.noteWrite]

/-- A write at any other address leaves cfg_state as it is. -/
theorem State.noteWrite_of_ne (s : State) {a : RegAddr} (v : Word) (r : Ack) (h : a ≠ configAddr) :
    s.noteWrite a v r = s := by
  simp [State.noteWrite, h]

@[simp] theorem State.withFetchWord_params (s : State) (nbits w : Nat) :
    (s.withFetchWord nbits w).params = s.params := rfl
@[simp] theorem State.withFetchWord_program (s : State) (nbits w : Nat) :
    (s.withFetchWord nbits w).program = setCommand s.program s.pc (BitVec.ofNat 32 (w % 2 ^ nbits)) := rfl
@[simp] theorem State.withFetchWord_out (s : State) (nbits w : Nat) :
    (s.withFetchWord nbits w).out = s.out := rfl
@[simp] theorem State.withFetchWord_err (s : State) (nbits w : Nat) :
    (s.withFetchWord nbits w).err = s.err := rfl
@[simp] theorem State.withFetchWord_errinfo (s : State) (nbits w : Nat) :
    (s.withFetchWord nbits w).errinfo = s.errinfo := rfl
@[simp] theorem State.withFetchWord_pc (s : State) (nbits w : Nat) :
    (s.withFetchWord nbits w).pc = s.pc := rfl
@[simp] theorem State.withFetchWord_handleOpen (s : State) (nbits w : Nat) :
    (s.withFetchWord nbits w).handleOpen = s.handleOpen := rfl
@[simp] theorem State.withFetchWord_cfgState (s : State) (nbits w : Nat) :
    (s.withFetchWord nbits w).cfgState = s.cfgState := rfl
@[simp] theorem State.withFetchWord_fault (s : State) (nbits w : Nat) :
    (s.withFetchWord nbits w).fault = s.fault := rfl
@[simp] theorem State.withFetchWord_log (s : State) (nbits w : Nat) :
    (s.withFetchWord nbits w).log = s.log := rfl
@[simp] theorem State.withFetchWord_transport (s : State) (nbits w : Nat) :
    (s.withFetchWord nbits w).transport = s.transport := rfl
@[simp] theorem State.withFetchWord_calls (s : State) (nbits w : Nat) :
    (s.withFetchWord nbits w).calls = s.calls := rfl

/-- The command that `setCommand` places is the one at its index. -/
theorem setCommand_getElem (program : List Command) (pc : Nat) (w : Command) :
    (setCommand program pc w)[pc]? = some w := by
  unfold setCommand
  split
  · rename_i h
    simp [h]
  · rename_i h
    rw [List.getElem?_append_right (by simp; omega)]
    simp [show pc - (program.length + (pc - program.length)) = 0 by omega]

end Sys2Proof.Machine
end

