-- ==== Sys2Proof/Laws/Ops.lean ====
section
/-! SUPPORT. For each shared operation, once, everything it can do. -/

namespace Sys2Proof.Machine

open Sys2Proof.Config

/-! ### The transport -/

/-- The oracle answers with its draw, the listed ones first. -/
@[simp] theorem oracleDraw_cons (d : Draw) (ds : List Draw) (n : Nat) (c : TransportCall) :
    oracleDraw (d :: ds) n c = d := rfl

/-- Every answer to a read is some draw's. -/
theorem exists_drawReadAnswer (r : ReadAnswer) : ∃ d, drawReadAnswer d = r := by
  cases r with
  | fail => exact ⟨⟨.fail, []⟩, rfl⟩
  | bytes bs => exact ⟨⟨.ok, bs⟩, rfl⟩

/-- The oracle always has an answer to a read. -/
theorem transportReadAnswer_oracle (ds : List Draw) (n : Nat) (a : RegAddr) (c : TransportCall) :
    transportReadAnswer (.oracle ds) n a c = some (drawReadAnswer (oracleDraw ds n c)) := rfl

/-- The mock has no answer exactly where its map holds no value. -/
theorem mockReadAnswer_eq_none (m : Mock) (n : Nat) (a : RegAddr) :
    mockReadAnswer m n a = none ↔ m.regs.read a.toNat = none := by
  unfold mockReadAnswer
  cases m.regs.read a.toNat with
  | none => simp
  | some w =>
    simp only [reduceCtorEq, iff_false]
    split
    · simp
    · split <;> simp

/-- The two bytes on the wire, put together again, are the value. -/
@[simp] theorem hiByte_append_loByte (v : Word) : hiByte v ++ loByte v = v := by
  apply BitVec.eq_of_getLsbD_eq
  intro i hi
  simp only [BitVec.getLsbD_append, hiByte, loByte, BitVec.getLsbD_extractLsb']
  by_cases h : i < 8
  · simp [h]
  · simp only [h, decide_false]
    have h1 : i - 8 < 8 := by omega
    have h2 : 8 + (i - 8) = i := by omega
    simp [h1, h2]

/-- The bytes of a transfer, by the spec's own fields. -/
theorem wireBytes_eq (v : Word) : wireBytes v = [v.extractLsb 15 8, v.extractLsb 7 0] := rfl

/-- A store of a value's two bytes in the mock writes the value at the address. -/
@[simp] theorem mockStore_wireBytes (m : Mock) (a : RegAddr) (v : Word) :
    mockStore m a (wireBytes v) = { m with regs := m.regs.write a.toNat v } := by
  simp [mockStore, wireBytes, enc16]

/-- A store keeps the mock's map in its canonical form. -/
theorem mockStore_wf (m : Mock) (a : RegAddr) (v : Word) (h : m.regs.wf = true) :
    (mockStore m a (wireBytes v)).regs.wf = true := by
  rw [mockStore_wireBytes]
  exact Memory.write_wf _ _ a.isLt h

/-! ### The calls -/

/-- `Open(BUS_ID)`: its answer is the transport's, and the call is logged. -/
theorem State.openBus_eq (s : State) :
    s.openBus =
      (transportAck s.transport (s.calls + 1) (.openBus s.params.busId),
        s.logCall (.openBus s.params.busId (transportAck s.transport (s.calls + 1) (.openBus s.params.busId)))
          (transportAfterCall s.transport)) := rfl

/-- `MemWrite`: its answer is the transport's, and the call is logged. -/
theorem State.memWrite_eq (s : State) (a : RegAddr) (bs : List Byte) (r : Ack)
    (h : transportAck s.transport (s.calls + 1) (.writeBlock s.params.deviceAddr a 2 bs) = r) :
    s.memWrite a bs =
      (r, s.logCall (.write s.params.deviceAddr a 2 bs r) (transportAfterWrite s.transport a bs r)) := by
  subst h
  rfl

/-- `MemRead`: none where the transport has no answer; else its answer, and the call is logged. -/
theorem State.memRead_eq (s : State) (a : RegAddr) (o : Option ReadAnswer)
    (h : transportReadAnswer s.transport (s.calls + 1) a (.readBlock s.params.deviceAddr a 2) = o) :
    s.memRead a =
      o.map fun r => (r, s.logCall (.read s.params.deviceAddr a 2 r) (transportAfterCall s.transport)) := by
  subst h
  show (match transportReadAnswer s.transport (s.calls + 1) a (.readBlock s.params.deviceAddr a 2) with
    | none => none
    | some r => some (r, s.logCall (.read s.params.deviceAddr a 2 r) (transportAfterCall s.transport))) = _
  cases transportReadAnswer s.transport (s.calls + 1) a (.readBlock s.params.deviceAddr a 2) <;> rfl

/-! ### The register procedures -/

/-- Everything `writeRegister` can do: it faults without a handle; else it makes one call and raises TransportError
where that fails, and goes on where it succeeds. -/
theorem State.writeRegister_cases (s : State) (a : RegAddr) (v : Word) :
    (s.handleOpen = false ∧ s.writeRegister a v = .ended (s.takeFault .noHandle)) ∨
    (s.handleOpen = true ∧ ∃ r,
      transportAck s.transport (s.calls + 1) (.writeBlock s.params.deviceAddr a 2 (wireBytes v)) = r ∧
      s.writeRegister a v =
        match r with
        | .fail => .ended (((s.logCall (.write s.params.deviceAddr a 2 (wireBytes v) .fail)
            (transportAfterWrite s.transport a (wireBytes v) .fail)).noteWrite a v .fail).raise
              .transportError .writeFailed)
        | .ok => .value () ((s.logCall (.write s.params.deviceAddr a 2 (wireBytes v) .ok)
            (transportAfterWrite s.transport a (wireBytes v) .ok)).noteWrite a v .ok)) := by
  cases h : s.handleOpen with
  | false => exact .inl ⟨rfl, by simp [State.writeRegister, h]⟩
  | true =>
    refine .inr ⟨rfl, _, rfl, ?_⟩
    have hw := State.memWrite_eq s a (wireBytes v) _ rfl
    simp only [State.writeRegister, h, if_true, hw]
    cases transportAck s.transport (s.calls + 1) (.writeBlock s.params.deviceAddr a 2 (wireBytes v)) <;> rfl

/-- Everything `readReply` can do. -/
theorem State.readReply_cases (s : State) (r : ReadAnswer) :
    (r = .fail ∧ s.readReply r = .ended (s.raise .transportError .readFailed)) ∨
    (∃ b0 b1, r = .bytes [b0, b1] ∧ s.readReply r = .value (dec16 b0 b1) s) ∨
    (∃ bs, r = .bytes bs ∧ bs.length < 2 ∧
      s.readReply r = .ended (s.raise .protocolError (.shortRead bs.length))) ∨
    (∃ bs, r = .bytes bs ∧ 2 < bs.length ∧
      s.readReply r = .ended (s.raise .protocolError (.longRead bs.length))) := by
  match r with
  | .fail => exact .inl ⟨rfl, rfl⟩
  | .bytes [] => exact .inr (.inr (.inl ⟨[], rfl, by simp, rfl⟩))
  | .bytes [b] => exact .inr (.inr (.inl ⟨[b], rfl, by simp, rfl⟩))
  | .bytes [b0, b1] => exact .inr (.inl ⟨b0, b1, rfl, rfl⟩)
  | .bytes (b0 :: b1 :: b2 :: bs) =>
    refine .inr (.inr (.inr ⟨_, rfl, by simp, ?_⟩))
    simp [State.readReply, xferBytes]

/-- Everything `readRegister` can do: it faults without a handle, then Unconfigured, then where the mock holds no
value; else it makes one call and decodes the answer. -/
theorem State.readRegister_cases (s : State) (a : RegAddr) :
    (s.handleOpen = false ∧ s.readRegister a = .ended (s.takeFault .noHandle)) ∨
    (s.handleOpen = true ∧ s.cfgState = .unconfigured ∧
      s.readRegister a = .ended (s.takeFault .unconfigured)) ∨
    (s.handleOpen = true ∧ s.cfgState = .configured ∧
      transportReadAnswer s.transport (s.calls + 1) a (.readBlock s.params.deviceAddr a 2) = none ∧
      s.readRegister a = .ended (s.takeFault .mockUnwritten)) ∨
    (s.handleOpen = true ∧ s.cfgState = .configured ∧ ∃ r,
      transportReadAnswer s.transport (s.calls + 1) a (.readBlock s.params.deviceAddr a 2) = some r ∧
      s.readRegister a =
        (s.logCall (.read s.params.deviceAddr a 2 r) (transportAfterCall s.transport)).readReply r) := by
  cases h : s.handleOpen with
  | false => exact .inl ⟨rfl, by simp [State.readRegister, h]⟩
  | true =>
    right
    cases hc : s.cfgState with
    | unconfigured => exact .inl ⟨rfl, rfl, by simp [State.readRegister, h, hc]⟩
    | configured =>
      right
      cases ho : transportReadAnswer s.transport (s.calls + 1) a (.readBlock s.params.deviceAddr a 2) with
      | none =>
        refine .inl ⟨rfl, rfl, rfl, ?_⟩
        simp [State.readRegister, h, hc, State.memRead_eq s a _ ho]
      | some r =>
        refine .inr ⟨rfl, rfl, r, rfl, ?_⟩
        simp [State.readRegister, h, hc, State.memRead_eq s a _ ho]

@[simp] theorem flowEnd_ended {α : Type} (s : State) (k : α → State → State) : flowEnd (.ended s) k = s := rfl

@[simp] theorem flowEnd_value {α : Type} (a : α) (s : State) (k : α → State → State) :
    flowEnd (.value a s) k = k a s := rfl

/-- Everything a command that makes one register read can do. -/
theorem State.readAndReturn_cases (s : State) (a : RegAddr) (result : Int → Out) :
    (s.handleOpen = false ∧ s.readAndReturn a result = s.takeFault .noHandle) ∨
    (s.handleOpen = true ∧ s.cfgState = .unconfigured ∧ s.readAndReturn a result = s.takeFault .unconfigured) ∨
    (s.handleOpen = true ∧ s.cfgState = .configured ∧
      transportReadAnswer s.transport (s.calls + 1) a (.readBlock s.params.deviceAddr a 2) = none ∧
      s.readAndReturn a result = s.takeFault .mockUnwritten) ∨
    (s.handleOpen = true ∧ s.cfgState = .configured ∧ ∃ r t,
      transportReadAnswer s.transport (s.calls + 1) a (.readBlock s.params.deviceAddr a 2) = some r ∧
      t = s.logCall (.read s.params.deviceAddr a 2 r) (transportAfterCall s.transport) ∧
      ((r = .fail ∧ s.readAndReturn a result = t.raise .transportError .readFailed) ∨
       (∃ b0 b1, r = .bytes [b0, b1] ∧ s.readAndReturn a result = t.returnValue (result (dec16 b0 b1))) ∨
       (∃ bs, r = .bytes bs ∧ bs.length < 2 ∧
          s.readAndReturn a result = t.raise .protocolError (.shortRead bs.length)) ∨
       (∃ bs, r = .bytes bs ∧ 2 < bs.length ∧
          s.readAndReturn a result = t.raise .protocolError (.longRead bs.length)))) := by
  rcases State.readRegister_cases s a with ⟨h, e⟩ | ⟨h, hc, e⟩ | ⟨h, hc, hn, e⟩ | ⟨h, hc, r, hr, e⟩
  · exact .inl ⟨h, by simp [State.readAndReturn, e]⟩
  · exact .inr (.inl ⟨h, hc, by simp [State.readAndReturn, e]⟩)
  · exact .inr (.inr (.inl ⟨h, hc, hn, by simp [State.readAndReturn, e]⟩))
  · refine .inr (.inr (.inr ⟨h, hc, r, _, hr, rfl, ?_⟩))
    rcases State.readReply_cases (s.logCall (.read s.params.deviceAddr a 2 r) (transportAfterCall s.transport)) r with
      ⟨h1, e1⟩ | ⟨b0, b1, h1, e1⟩ | ⟨bs, h1, h2, e1⟩ | ⟨bs, h1, h2, e1⟩
    · exact .inl ⟨h1, by simp [State.readAndReturn, e, e1]⟩
    · exact .inr (.inl ⟨b0, b1, h1, by simp [State.readAndReturn, e, e1]⟩)
    · exact .inr (.inr (.inl ⟨bs, h1, h2, by simp [State.readAndReturn, e, e1]⟩))
    · exact .inr (.inr (.inr ⟨bs, h1, h2, by simp [State.readAndReturn, e, e1]⟩))

/-! ### The channel check -/

/-- A channel is valid exactly when it is 1, 2 or 3. -/
theorem validCh_iff (c : Nat) : validCh c = true ↔ c = 1 ∨ c = 2 ∨ c = 3 := by
  simp [validCh, or_assoc]

/-- A valid channel lets the command do its work. -/
theorem State.onChannel_valid (s : State) {ch : Nat} (k : State) (h : validCh ch = true) :
    s.onChannel ch k = k := by
  simp [State.onChannel, h]

/-- Any other channel raises BAD_CHANNEL. -/
theorem State.onChannel_invalid (s : State) {ch : Nat} (k : State) (h : validCh ch = false) :
    s.onChannel ch k = s.raise .preconditionError (.badChannel ch) := by
  simp [State.onChannel, h]

/-! ### The step -/

/-- Everything a step that answers a next state can have done. -/
theorem step_next_cases {s t : State} (h : step s = .next t) :
    launchOk s.params = true ∧ s.fault = none ∧
      ∃ w, s.fetch = some w ∧
        ((∃ i, decode w = .ok i ∧ exec i s = .next t) ∨
          (∃ e, decode w = .error e ∧ t = s.raise .preconditionError .illegalCommand)) := by
  unfold step at h
  split at h
  · rename_i hl
    split at h
    · cases h
    · rename_i hf
      split at h
      · cases h
      · rename_i w hw
        refine ⟨hl, hf, w, hw, ?_⟩
        split at h
        · rename_i i hi
          exact .inl ⟨i, hi, h⟩
        · rename_i e he
          cases h
          exact .inr ⟨e, he, rfl⟩
  · cases h

end Sys2Proof.Machine
end

