-- ==== Sys2Proof/Laws/PerInstr.lean ====
section
/-! SUPPORT. The statements made for every command, one lemma per constructor of `Instr`. -/

namespace Sys2Proof.Laws.EncodingRow

/-- The command's word is one of its row's: under the row's `mask` it is the row's `match` (30_encoding.md R63), so
every field that its format reserves is zero (R62). -/
def Statement (i : Instr) : Prop := encode i &&& opMask (rowOf i) = opMatch (rowOf i)

/-- A word whose fields outside the mask are free, and whose other fields are zero, has the row's `match`. -/
theorem of_fields (op : Op) (ch : BitVec 4) (addr : RegAddr) (data : Word) (hm : opField (opMask op) = 0xF)
    (hc : ch &&& chField (opMask op) = 0) (ha : addr &&& addrField (opMask op) = 0)
    (hd : data &&& dataField (opMask op) = 0) : commandWord op ch addr data &&& opMask op = opMatch op := by
  rw [commandWord_and op ch addr data _ hm, hc, ha, hd, opMatch_eq]

theorem init : Statement .init :=
  of_fields .init _ _ _ (by decide) (by decide) (by decide) (by decide)

theorem cfg (o : CfgOptions) : Statement (.cfg o) :=
  of_fields .cfg _ _ _ (by decide) (by decide) (by decide) (by simp [show dataField (opMask .cfg) = 0 by decide])

theorem busaddr (ch : Nat) : Statement (.busaddr ch) :=
  of_fields .busaddr _ _ _ (by decide) (by simp [show chField (opMask .busaddr) = 0 by decide]) (by decide) (by decide)

theorem shuntaddr (ch : Nat) : Statement (.shuntaddr ch) :=
  of_fields .shuntaddr _ _ _ (by decide) (by simp [show chField (opMask .shuntaddr) = 0 by decide]) (by decide) (by decide)

theorem wrreg (addr : RegAddr) (data : Word) : Statement (.wrreg addr data) :=
  of_fields .wrreg _ _ _ (by decide) (by decide) (by simp [show addrField (opMask .wrreg) = 0 by decide]) (by simp [show dataField (opMask .wrreg) = 0 by decide])

theorem rdreg (addr : RegAddr) : Statement (.rdreg addr) :=
  of_fields .rdreg _ _ _ (by decide) (by decide) (by simp [show addrField (opMask .rdreg) = 0 by decide]) (by decide)

theorem enc16 (data : Word) : Statement (.enc16 data) :=
  of_fields .enc16 _ _ _ (by decide) (by decide) (by decide) (by simp [show dataField (opMask .enc16) = 0 by decide])

theorem dec16 (b0 b1 : Byte) : Statement (.dec16 b0 b1) :=
  of_fields .dec16 _ _ _ (by decide) (by decide) (by decide) (by simp [show dataField (opMask .dec16) = 0 by decide])

theorem busraw (ch : Nat) : Statement (.busraw ch) :=
  of_fields .busraw _ _ _ (by decide) (by simp [show chField (opMask .busraw) = 0 by decide]) (by decide) (by decide)

theorem shuntraw (ch : Nat) : Statement (.shuntraw ch) :=
  of_fields .shuntraw _ _ _ (by decide) (by simp [show chField (opMask .shuntraw) = 0 by decide]) (by decide) (by decide)

theorem scalebus (raw : Word) : Statement (.scalebus raw) :=
  of_fields .scalebus _ _ _ (by decide) (by decide) (by decide) (by simp [show dataField (opMask .scalebus) = 0 by decide])

theorem busv (ch : Nat) : Statement (.busv ch) :=
  of_fields .busv _ _ _ (by decide) (by simp [show chField (opMask .busv) = 0 by decide]) (by decide) (by decide)

theorem curma (ch : Nat) : Statement (.curma ch) :=
  of_fields .curma _ _ _ (by decide) (by simp [show chField (opMask .curma) = 0 by decide]) (by decide) (by decide)

end Sys2Proof.Laws.EncodingRow
end

