-- ==== Sys2Proof/Tests/Slice0.lean ====
section
/-! SUPPORT. Tests: each expected value stands in 95_test_vectors.md or is worked from the rule named, and the witnesses
that the statements' hypotheses can be met. -/

namespace Sys2Proof.Tests

open Sys2Proof.Machine Sys2Proof.Config Sys2Proof.Safety Sys2Proof.Statement

/-! ### Well-formedness: one ill-formed term for each check -/

theorem test_wellFormed_busaddr : (Instr.busaddr 16).wellFormed = false ∧ (Instr.busaddr 15).wellFormed = true := by decide
theorem test_wellFormed_shuntaddr : (Instr.shuntaddr 16).wellFormed = false := by decide
theorem test_wellFormed_busraw : (Instr.busraw 16).wellFormed = false := by decide
theorem test_wellFormed_shuntraw : (Instr.shuntraw 17).wellFormed = false := by decide
theorem test_wellFormed_busv : (Instr.busv 256).wellFormed = false := by decide
theorem test_wellFormed_curma : (Instr.curma 16).wellFormed = false := by decide

/-- 95_test_vectors.md 2.6: SHUNT_R = 0.0, -0.1, infinity, a NaN and 2^-1001 are refused; 2^-1000 is not. -/
theorem test_launch_shuntR :
    shuntROk 0x0000000000000000 = false ∧ shuntROk 0xBFB999999999999A = false ∧
    shuntROk 0x7FF0000000000000 = false ∧ shuntROk 0x7FF8000000000000 = false ∧
    shuntROk 0x0160000000000000 = false ∧ shuntROk 0x0170000000000000 = true ∧
    shuntROk 0x3FB999999999999A = true := by decide

/-- 70_reset_and_hazards.md R161: DEVICE_ADDR is 0x00..0x7F. -/
theorem test_launch_deviceAddr : deviceAddrOk 0x7F = true ∧ deviceAddrOk 0x80 = false := by decide

/-! ### Decoding: words written out bit by bit from 30_encoding.md R61, R63 -/

theorem test_decode_init : decode 0b00010000000000000000000000000000 = .ok .init := by rfl
theorem test_decode_cfg :
    decode 0b00100000000000001010111010101010 = .ok (.cfg ⟨false, true, false, true, 2, 5, 3, 5⟩) := by rfl
theorem test_decode_busaddr : decode 0b00110010000000000000000000000000 = .ok (.busaddr 2) := by rfl
theorem test_decode_shuntaddr : decode 0b01000011000000000000000000000000 = .ok (.shuntaddr 3) := by rfl
theorem test_decode_wrreg : decode 0b01010000000100001010101100000001 = .ok (.wrreg 0x10 0xAB01) := by rfl
theorem test_decode_rdreg : decode 0b01100000000000100000000000000000 = .ok (.rdreg 0x02) := by rfl
theorem test_decode_enc16 : decode 0b01110000000000000111001111111111 = .ok (.enc16 0x73FF) := by rfl
theorem test_decode_dec16 : decode 0b10000000000000001111111110011100 = .ok (.dec16 0xFF 0x9C) := by rfl
theorem test_decode_busraw : decode 0b10010001000000000000000000000000 = .ok (.busraw 1) := by rfl
theorem test_decode_shuntraw : decode 0b10100010000000000000000000000000 = .ok (.shuntraw 2) := by rfl
theorem test_decode_scalebus : decode 0b10110000000000000001100111001000 = .ok (.scalebus 0x19C8) := by rfl
theorem test_decode_busv : decode 0b11000001000000000000000000000000 = .ok (.busv 1) := by rfl
theorem test_decode_curma : decode 0b11010100000000000000000000000000 = .ok (.curma 4) := by rfl

/-- 95_test_vectors.md 2.1: the illegal words. -/
theorem test_decode_illegal :
    decode 0x00000000 = .error .unassignedOp ∧ decode 0xE0000000 = .error .unassignedOp ∧
    decode 0xF1234567 = .error .unassignedOp ∧ decode 0x10000001 = .error .reservedNotZero ∧
    decode 0x21000000 = .error .reservedNotZero ∧ decode 0x20010000 = .error .reservedNotZero ∧
    decode 0x51000000 = .error .reservedNotZero ∧ decode 0x60000001 = .error .reservedNotZero ∧
    decode 0x62000000 = .error .reservedNotZero ∧ decode 0x31000001 = .error .reservedNotZero ∧
    decode 0x34000001 = .error .reservedNotZero ∧ decode 0x70010000 = .error .reservedNotZero ∧
    decode 0x83000000 = .error .reservedNotZero ∧ decode 0xB0100000 = .error .reservedNotZero ∧
    decode 0x1FFFFFFF = .error .reservedNotZero := by
  refine ⟨?_, ?_, ?_, ?_, ?_, ?_, ?_, ?_, ?_, ?_, ?_, ?_, ?_, ?_, ?_⟩ <;> rfl

/-- The encoder writes the words of 95_test_vectors.md. -/
theorem test_encode :
    encode (.cfg ⟨false, true, true, true, 1, 7, 7, 7⟩) = 0x2000FF9E ∧ encode (.wrreg 0xFF 0xFFFF) = 0x50FFFFFF ∧
    encode (.dec16 0x00 0x80) = 0x80000080 ∧ encode (.curma 4) = 0xD4000000 := by decide

/-- The host's numbering: one 32-bit word, bit 0 the least significant. -/
theorem test_decodeTableWord :
    decodeTableWord 32 0x60020000 = some (.rdreg 0x02) ∧ decodeTableWord 32 0 = none := by decide

/-! ### The meanings, one step each -/

/-- A launched machine with an open handle in the Configured state. -/
def ready (t : Transport) : State :=
  { State.reset with handleOpen := true, cfgState := .configured, transport := t }

/-- An oracle whose next answer succeeds, with these bytes where it answers a read. -/
def answering (bs : List Byte) : Transport := .oracle [⟨.ok, bs⟩]

/-- An oracle whose next answer fails. -/
def failing : Transport := .oracle [⟨.fail, []⟩]

/-- What a test compares of a next state. -/
def seen (o : Host.Outcome State Fault Refusal) : Option (Out × BitVec 3 × ErrInfo × Option Fault × Nat) :=
  match o with
  | .next s => some (s.out, s.err, s.errinfo, s.fault, s.pc)
  | _ => none

/-- What a test compares of the transport side of a next state. -/
def traffic (o : Host.Outcome State Fault Refusal) : Option (Bool × CfgState × List LogEntry) :=
  match o with
  | .next s => some (s.handleOpen, s.cfgState, s.log)
  | _ => none

/-- S9: INIT opens the bus, then writes 0x73FF. -/
theorem test_init :
    traffic (exec .init { State.reset with transport := .mock ⟨[], [], []⟩ }) =
      some (true, .configured, [.openBus 0 .ok, .write 0x40 0x00 2 [0x73, 0xFF] .ok]) := by decide

/-- P6: INIT's write fails. -/
theorem test_init_write_fails :
    seen (exec .init { State.reset with transport := .mock ⟨[], [2], []⟩ }) =
      some (.none, 2, .writeFailed, none, 1) := by decide

/-- 2.2: CFG of 0xAEAA gives 0x555D, and of 0xF24E gives 0x7927. -/
theorem test_cfg :
    configure (optionsOfVector 0xAEAA) = 0x555D ∧ configure (optionsOfVector 0xF24E) = 0x7927 ∧
    configure (optionsOfVector 0x0001) = 0x8000 ∧ configure (optionsOfVector 0x68EC) = 0x3C53 := by decide

theorem test_cfg_default :
    seen (exec (.cfg defaultOptions) State.reset) = some (.w16 0x73FF, 0, .none, none, 1) := by decide

theorem test_busaddr : seen (exec (.busaddr 2) State.reset) = some (.a8 0x04, 0, .none, none, 1) := by decide
theorem test_busaddr_invalid :
    seen (exec (.busaddr 15) State.reset) = some (.none, 4, .badChannel 15, none, 1) := by decide

theorem test_shuntaddr : seen (exec (.shuntaddr 3) State.reset) = some (.a8 0x05, 0, .none, none, 1) := by decide
theorem test_shuntaddr_legacy :
    seen (exec (.shuntaddr 3) { State.reset with params := { defaultParams with shuntBank := .legacy } }) =
      some (.a8 0x06, 0, .none, none, 1) := by decide

/-- 2.4: a write of 0x8000 at CONFIG leaves Unconfigured. -/
theorem test_wrreg_reset_word :
    traffic (exec (.wrreg 0x00 0x8000) (ready (answering []))) =
      some (true, .unconfigured, [.write 0x40 0x00 2 [0x80, 0x00] .ok]) := by decide

/-- 2.4: a failed write at 0x05. -/
theorem test_wrreg_fails :
    seen (exec (.wrreg 0x05 0x1234) (ready failing)) = some (.none, 2, .writeFailed, none, 1) ∧
    traffic (exec (.wrreg 0x05 0x1234) (ready failing)) =
      some (true, .configured, [.write 0x40 0x05 2 [0x12, 0x34] .fail]) := by decide

/-- 2.4: RDREG of [0x80, 0x00]. -/
theorem test_rdreg :
    seen (exec (.rdreg 0x02) (ready (answering [0x80, 0x00]))) = some (.i (-32768), 0, .none, none, 1) := by decide

/-- 2.4: short and long reads. -/
theorem test_rdreg_byte_counts :
    seen (exec (.rdreg 0x02) (ready (answering [0x5D]))) = some (.none, 3, .shortRead 1, none, 1) ∧
    seen (exec (.rdreg 0x02) (ready (answering [1, 2, 3]))) = some (.none, 3, .longRead 3, none, 1) :=
  ⟨by decide, by decide⟩

theorem test_enc16 : seen (exec (.enc16 0x73FF) State.reset) = some (.b2 0x73 0xFF, 0, .none, none, 1) := by decide

theorem test_dec16 : seen (exec (.dec16 0xFF 0x9C) State.reset) = some (.i (-100), 0, .none, none, 1) := by decide
theorem test_dec16_order : seen (exec (.dec16 0x00 0x80) State.reset) = some (.i 128, 0, .none, none, 1) := by decide

/-- P1: the status bits of 0x5DC7 do not count. -/
theorem test_busraw :
    seen (exec (.busraw 1) (ready (answering [0x5D, 0xC7]))) = some (.i 12000, 0, .none, none, 1) := by decide

/-- 2.7: the channel is checked before the handle. -/
theorem test_busraw_before_init :
    seen (exec (.busraw 4) State.reset) = some (.none, 4, .badChannel 4, none, 1) ∧
    seen (exec (.busraw 1) State.reset) = some (.none, 0, .none, some .noHandle, 0) :=
  ⟨by decide, by decide⟩

/-- 2.6: SHUNT_BANK, with the mock holding 0x0064 at 0x01 and 0x5DC0 at 0x02. -/
theorem test_shuntraw :
    seen (exec (.shuntraw 1) (ready (.mock ⟨[(1, 0x0064), (2, 0x5DC0)], [], []⟩))) =
      some (.i 100, 0, .none, none, 1) := by decide
theorem test_shuntraw_legacy :
    seen (exec (.shuntraw 1) { ready (.mock ⟨[(1, 0x0064), (2, 0x5DC0)], [], []⟩) with
      params := { defaultParams with shuntBank := .legacy } }) = some (.i 24000, 0, .none, none, 1) := by decide

/-- 43_scaler.md R124: SCALEBUS -9 gives -8, and -8 gives -4. -/
theorem test_scalebus :
    seen (exec (.scalebus 0xFFF7) State.reset) = some (.i (-8), 0, .none, none, 1) ∧
    seen (exec (.scalebus 0xFFF8) State.reset) = some (.i (-4), 0, .none, none, 1) :=
  ⟨by decide, by decide⟩

/-- P1: BUSV of 0x19C8 is 3.3000000000000003. -/
theorem test_busv :
    seen (exec (.busv 2) (ready (answering [0x19, 0xC8]))) =
      some (.f64 0x400A666666666667, 0, .none, none, 1) := by decide +kernel

/-- 43_scaler.md R125: the product by 0.001 is not the quotient by 1000. -/
theorem test_bus_volts_is_a_product :
    busVolts 3300 = 0x400A666666666667 ∧ f64Div (f64OfInt 3300) (f64OfInt 1000) = 0x400A666666666666 := by
  decide +kernel

/-- 2.5: the patterns of bus_V. -/
theorem test_busVolts :
    busVolts 0 = 0 ∧ busVolts 4 = 0x3F70624DD2F1A9FC ∧ busVolts 16380 = 0x40306147AE147AE1 ∧
    busVolts (-16384) = 0xC030624DD2F1A9FC ∧ busVolts 52 = 0x3FAA9FBE76C8B43A ∧
    busVolts (-16368) = 0xC0305E353F7CED92 := by decide +kernel

/-- S5: CURMA of 100 with the default SHUNT_R is 1000.0. -/
theorem test_curma :
    seen (exec (.curma 1) (ready (answering [0x00, 0x64]))) =
      some (.f64 0x408F400000000000, 0, .none, none, 1) := by decide +kernel

/-- 2.6: the patterns of current. -/
theorem test_current :
    current 0x4008000000000000 1 = 0x3FD5555555555555 ∧ current 0x3F50624DD2F1A9FC (-32768) = 0xC17F400000000000 ∧
    current 0x3F847AE147AE147B 100 = 0x40C3880000000000 ∧ current 0x3FE0000000000000 40 = 0x4054000000000000 ∧
    current 0x3FB999999999999A 0 = 0 := by decide +kernel

/-- IEEE 754: the greatest SHUNT_R gives a subnormal quotient, and the least a finite one; a product past the greatest
finite number is infinite. -/
theorem test_f64_edges :
    current 0x7FEFFFFFFFFFFFFF 1 = 0x0004000000000000 ∧ current 0x0170000000000000 (-32768) = 0xFF60000000000000 ∧
    f64Mul 0x7FEFFFFFFFFFFFFF 0x4000000000000000 = 0x7FF0000000000000 ∧
    f64Mul 0x0000000000000001 0x3FE0000000000000 = 0 := by decide +kernel

/-! ### Steps -/

/-- The state of a host that issues `w` first. -/
def issuing (w : Command) : State := { State.reset with program := [w] }

theorem issuing_issues (w : Command) : Issues (issuing w) w :=
  ⟨show launchOk defaultParams = true by decide, rfl, rfl⟩

/-- 2.7: an illegal word is reported before its channel. -/
theorem test_step_illegal :
    seen (step (issuing 0x34000001)) = some (.none, 4, .illegalCommand, none, 1) := by decide

/-- P4: SCALEBUS 0x1234 before INIT. -/
theorem test_step_scalebus : seen (step (issuing 0xB0001234)) = some (.i 2328, 0, .none, none, 1) := by decide

/-- 2.7: INIT, then RDREG 0x07 on an empty mock: UNIT, then F_MOCK_UNWRITTEN with pc 1 and OUT UNIT. -/
theorem test_mock_unwritten :
    seen (exec (.rdreg 0x07) { ready (.mock ⟨[(0, 0x73FF)], [], []⟩) with out := .unit, pc := 1 }) =
      some (.unit, 0, .none, some .mockUnwritten, 1) := by decide

/-- The host's word is the next one fetched. -/
theorem test_withFetchWord :
    seen (step (State.reset.withFetchWord 32 0x33000000)) = some (.a8 0x06, 0, .none, none, 1) := by decide

theorem test_step_program_ended : step State.reset = .refused .programEnded := by rfl

theorem test_step_launch_refused :
    step { State.reset with params := { defaultParams with deviceAddr := 0x80 } } = .refused .launchRefused := by rfl

theorem test_reset_memory_wf : transportOk State.reset.transport := trivial

/-! ### The assembler -/

/-- 30_encoding.md R69, 95_test_vectors.md: the words of the pseudo-instructions and of signed operands. -/
theorem test_assemble :
    assemble .cfgdef = .ok 0x2000FF9E ∧ assemble .resetdev = .ok 0x50008000 ∧
    assemble (.wrcfg [.en [1, 2, 3], .avg 1, .bct 7, .sct 7, .mode 7]) = .ok 0x500073FF ∧
    assemble (.scalebus (-9)) = .ok 0xB000FFF7 ∧ assemble (.busraw 16) = .error .outOfRange ∧
    assemble (.cfg [.rst 1, .rst 1]) = .error .repeatedKey := by
  refine ⟨?_, ?_, ?_, ?_, ?_, ?_⟩ <;> rfl

/-- A line's text: `WRREG 0x10, -1 ; end`. -/
theorem test_readLine :
    readLine ['W', 'R', 'R', 'E', 'G', ' ', '0', 'x', '1', '0', ',', ' ', '-', '1', ' ', ';', ' ', 'e', 'n', 'd'] =
      .ok (some (.wrreg 0x10 (-1))) := by rfl

/-- A line's text with a set: CFG with `rst=1` and `en` of channels 1 and 3. -/
theorem test_readLine_cfg :
    readLine ['C', 'F', 'G', ' ', 'r', 's', 't', '=', '1', ',', ' ', 'e', 'n', '=', lbrace, '1', ',', '3', rbrace] =
      .ok (some (.cfg [.rst 1, .en [1, 3]])) := by rfl

/-! ### Witnesses: the hypotheses of each statement can be met together -/

theorem witness_DecodeInvertsEncode : (Instr.busaddr 15).wellFormed = true ∧ (Instr.busaddr 0).wellFormed = true := by
  decide

theorem witness_EncodeInvertsDecode : decode 0x50FFFFFF = .ok (.wrreg 0xFF 0xFFFF) := by rfl

theorem witness_CommandWords_1 :
    (∃ s w, Issues s w ∧ (w.extractLsb 31 28).toNat = 0x1 ∧ ReservedN w) ∧
    (∃ s w, Issues s w ∧ (w.extractLsb 31 28).toNat = 0x1 ∧ ¬ ReservedN w) :=
  ⟨⟨_, 0x10000000, issuing_issues _, by decide, by decide⟩, ⟨_, 0x1FFFFFFF, issuing_issues _, by decide, by decide⟩⟩

theorem witness_CommandWords_2 :
    (∃ s w, Issues s w ∧ (w.extractLsb 31 28).toNat = 0x2 ∧ ReservedD w) ∧
    (∃ s w, Issues s w ∧ (w.extractLsb 31 28).toNat = 0x2 ∧ ¬ ReservedD w) :=
  ⟨⟨_, 0x2000FFFF, issuing_issues _, by decide, by decide⟩, ⟨_, 0x20010000, issuing_issues _, by decide, by decide⟩⟩

theorem witness_CommandWords_3 :
    (∃ s w, Issues s w ∧ (w.extractLsb 31 28).toNat = 0x3 ∧ ReservedC w) ∧
    (∃ s w, Issues s w ∧ (w.extractLsb 31 28).toNat = 0x3 ∧ ¬ ReservedC w) :=
  ⟨⟨_, 0x3F000000, issuing_issues _, by decide, by decide⟩, ⟨_, 0x31000001, issuing_issues _, by decide, by decide⟩⟩

theorem witness_CommandWords_4 :
    (∃ s w, Issues s w ∧ (w.extractLsb 31 28).toNat = 0x4 ∧ ReservedC w) ∧
    (∃ s w, Issues s w ∧ (w.extractLsb 31 28).toNat = 0x4 ∧ ¬ ReservedC w) :=
  ⟨⟨_, 0x40000000, issuing_issues _, by decide, by decide⟩, ⟨_, 0x40010000, issuing_issues _, by decide, by decide⟩⟩

theorem witness_CommandWords_5 :
    (∃ s w, Issues s w ∧ (w.extractLsb 31 28).toNat = 0x5 ∧ ReservedA w) ∧
    (∃ s w, Issues s w ∧ (w.extractLsb 31 28).toNat = 0x5 ∧ ¬ ReservedA w) :=
  ⟨⟨_, 0x50FFFFFF, issuing_issues _, by decide, by decide⟩, ⟨_, 0x51000000, issuing_issues _, by decide, by decide⟩⟩

theorem witness_CommandWords_6 :
    (∃ s w, Issues s w ∧ (w.extractLsb 31 28).toNat = 0x6 ∧ ReservedR w) ∧
    (∃ s w, Issues s w ∧ (w.extractLsb 31 28).toNat = 0x6 ∧ ¬ ReservedR w) :=
  ⟨⟨_, 0x60FF0000, issuing_issues _, by decide, by decide⟩, ⟨_, 0x60000001, issuing_issues _, by decide, by decide⟩⟩

theorem witness_CommandWords_7 :
    (∃ s w, Issues s w ∧ (w.extractLsb 31 28).toNat = 0x7 ∧ ReservedD w) ∧
    (∃ s w, Issues s w ∧ (w.extractLsb 31 28).toNat = 0x7 ∧ ¬ ReservedD w) :=
  ⟨⟨_, 0x7000FFFF, issuing_issues _, by decide, by decide⟩, ⟨_, 0x71000000, issuing_issues _, by decide, by decide⟩⟩

theorem witness_CommandWords_8 :
    (∃ s w, Issues s w ∧ (w.extractLsb 31 28).toNat = 0x8 ∧ ReservedD w) ∧
    (∃ s w, Issues s w ∧ (w.extractLsb 31 28).toNat = 0x8 ∧ ¬ ReservedD w) :=
  ⟨⟨_, 0x8000FFFF, issuing_issues _, by decide, by decide⟩, ⟨_, 0x83000000, issuing_issues _, by decide, by decide⟩⟩

theorem witness_CommandWords_9 :
    (∃ s w, Issues s w ∧ (w.extractLsb 31 28).toNat = 0x9 ∧ ReservedC w) ∧
    (∃ s w, Issues s w ∧ (w.extractLsb 31 28).toNat = 0x9 ∧ ¬ ReservedC w) :=
  ⟨⟨_, 0x9F000000, issuing_issues _, by decide, by decide⟩, ⟨_, 0x90000001, issuing_issues _, by decide, by decide⟩⟩

theorem witness_CommandWords_A :
    (∃ s w, Issues s w ∧ (w.extractLsb 31 28).toNat = 0xA ∧ ReservedC w) ∧
    (∃ s w, Issues s w ∧ (w.extractLsb 31 28).toNat = 0xA ∧ ¬ ReservedC w) :=
  ⟨⟨_, 0xAF000000, issuing_issues _, by decide, by decide⟩, ⟨_, 0xA0010000, issuing_issues _, by decide, by decide⟩⟩

theorem witness_CommandWords_B :
    (∃ s w, Issues s w ∧ (w.extractLsb 31 28).toNat = 0xB ∧ ReservedD w) ∧
    (∃ s w, Issues s w ∧ (w.extractLsb 31 28).toNat = 0xB ∧ ¬ ReservedD w) :=
  ⟨⟨_, 0xB000FFFF, issuing_issues _, by decide, by decide⟩, ⟨_, 0xB0100000, issuing_issues _, by decide, by decide⟩⟩

theorem witness_CommandWords_C :
    (∃ s w, Issues s w ∧ (w.extractLsb 31 28).toNat = 0xC ∧ ReservedC w) ∧
    (∃ s w, Issues s w ∧ (w.extractLsb 31 28).toNat = 0xC ∧ ¬ ReservedC w) :=
  ⟨⟨_, 0xCF000000, issuing_issues _, by decide, by decide⟩, ⟨_, 0xC0000001, issuing_issues _, by decide, by decide⟩⟩

theorem witness_CommandWords_D :
    (∃ s w, Issues s w ∧ (w.extractLsb 31 28).toNat = 0xD ∧ ReservedC w) ∧
    (∃ s w, Issues s w ∧ (w.extractLsb 31 28).toNat = 0xD ∧ ¬ ReservedC w) :=
  ⟨⟨_, 0xDF000000, issuing_issues _, by decide, by decide⟩, ⟨_, 0xD0800000, issuing_issues _, by decide, by decide⟩⟩

theorem witness_IllegalWordRaisesIllegalCommand :
    (∃ s w, Issues s w ∧ IllegalWord w) ∧ (∃ s w, Issues s w ∧ ¬ IllegalWord w) :=
  ⟨⟨_, 0xE0000000, issuing_issues _, by unfold IllegalWord; decide⟩,
    ⟨_, 0xD0000000, issuing_issues _, by unfold IllegalWord; decide⟩⟩

theorem witness_StepRunsDecodedInstruction : ∃ s w i, Issues s w ∧ decode w = .ok i :=
  ⟨_, 0xDF000000, .curma 15, issuing_issues _, rfl⟩

/-- A machine that a fault has stopped. -/
def stopped : State := { State.reset with fault := some .noHandle }

theorem witness_FaultIsSticky : ∃ s f, s.fault = some f ∧ launchOk s.params = true ∧ Steps s s :=
  ⟨stopped, .noHandle, rfl, rfl, .refl _⟩

theorem witness_FaultChangesNothingElse : ∃ s t f, step s = .next t ∧ t.fault = some f :=
  ⟨issuing 0x60010000, _, _, rfl, rfl⟩

theorem witness_PcCountsCommands :
    (∃ s t, step s = .next t ∧ t.fault = none) ∧ (∃ s t, step s = .next t ∧ t.fault ≠ none) ∧
    (∃ s : State, s.pc = s.program.length) :=
  ⟨⟨issuing 0x31000000, _, rfl, rfl⟩, ⟨issuing 0x60010000, _, rfl, by decide⟩, ⟨State.reset, rfl⟩⟩

theorem witness_EndedProgramIsRefused : ∃ s : State, launchOk s.params = true ∧ s.fault = none :=
  ⟨State.reset, rfl, rfl⟩

theorem witness_EveryRunEndsOrFaults :
    ∃ s : State, launchOk s.params = true ∧ s.fault = none ∧ s.pc ≤ s.program.length :=
  ⟨issuing 0x10000000, rfl, rfl, by decide⟩

/-- A host that boots on an oracle and then reads: INIT, RDREG 0x02. -/
def booting : State :=
  { State.reset with program := [0x10000000, 0x60020000], transport := .oracle [⟨.ok, []⟩, ⟨.ok, []⟩, ⟨.ok, [1, 2]⟩] }

theorem booting_keepsConfig : KeepsConfig (booting.program.drop 1) := by
  intro w hw i hi
  rw [List.mem_singleton.mp hw] at hi
  have h : decode 0x60020000 = .ok (.rdreg 0x02) := rfl
  rw [h] at hi
  cases hi
  exact ⟨by simp, by simp⟩

/-- A run from there meets both clauses: its INIT succeeds, and the state after it is booted and takes a step. -/
theorem witness_BootedProgramNeverFaults :
    (∃ s t u : State, Steps booting s ∧ step s = .next t ∧ Booted t ∧ step t = .next u) ∧
    (∃ s t : State, s.fault = none ∧ s.handleOpen = false ∧ OnOracle s ∧ KeepsConfig (s.program.drop (s.pc + 1)) ∧
      exec .init s = .next t ∧ t.err = 0) :=
  ⟨⟨booting, _, _, .refl _, rfl, ⟨rfl, rfl, rfl, ⟨_, rfl⟩, booting_keepsConfig⟩, rfl⟩,
    ⟨booting, _, rfl, rfl, ⟨_, rfl⟩, booting_keepsConfig, rfl, rfl⟩⟩

theorem witness_InitOpensAndConfigures :
    (∃ s : State, s.handleOpen = true) ∧
    (∃ s : State, s.handleOpen = false ∧ OpenAnswer s = .fail) ∧
    (∃ s o : State, s.handleOpen = false ∧ OpenAnswer s = .ok ∧
      o = { AfterOpen s .ok with handleOpen := true } ∧ WriteAnswer o 0x00 [0x73, 0xFF] = .fail) ∧
    (∃ s o : State, s.handleOpen = false ∧ OpenAnswer s = .ok ∧
      o = { AfterOpen s .ok with handleOpen := true } ∧ WriteAnswer o 0x00 [0x73, 0xFF] = .ok) :=
  ⟨⟨ready failing, rfl⟩, ⟨{ State.reset with transport := failing }, rfl, rfl⟩,
    ⟨{ State.reset with transport := .oracle [⟨.ok, []⟩, ⟨.fail, []⟩] }, _, rfl, rfl, rfl, rfl⟩,
    ⟨{ State.reset with transport := .oracle [⟨.ok, []⟩, ⟨.ok, []⟩] }, _, rfl, rfl, rfl, rfl⟩⟩

/-- The channel statements, at the ends of each range. -/
theorem witness_channels : Valid 1 ∧ Valid 2 ∧ Valid 3 ∧ ¬ Valid 0 ∧ ¬ Valid 4 ∧ ¬ Valid 15 := by decide

theorem witness_WrregWritesBigEndian :
    (∃ s : State, s.handleOpen = false) ∧
    (∃ (s : State) (a : RegAddr) (v : Word) (bs : List Byte), s.handleOpen = true ∧
      bs = [v.extractLsb 15 8, v.extractLsb 7 0] ∧ WriteAnswer s a bs = .fail) ∧
    (∃ (s : State) (a : RegAddr) (v : Word) (bs : List Byte), s.handleOpen = true ∧
      bs = [v.extractLsb 15 8, v.extractLsb 7 0] ∧ WriteAnswer s a bs = .ok) :=
  ⟨⟨State.reset, rfl⟩, ⟨ready failing, 0x00, 0x8000, _, rfl, rfl, rfl⟩,
    ⟨ready (answering []), 0xFF, 0xFFFF, _, rfl, rfl, rfl⟩⟩

/-- RDREG at both ends of the address space, and each measurement at a channel of its own. -/
theorem witness_ReadsCompleteOnTwoBytes :
    ∃ (s : State) (b0 b1 : Byte), s.handleOpen = true ∧ s.cfgState = .configured ∧
      (∀ a, ReadAnswerTo s a = some (.bytes [b0, b1])) ∧ s.params.shuntBank = .corrected ∧
      (0x02 : RegAddr) = BusRegister 1 ∧ (0x06 : RegAddr) = BusRegister 3 ∧
      (0x01 : RegAddr) = ShuntRegister .corrected 1 ∧ (0x06 : RegAddr) = ShuntRegister .legacy 3 :=
  ⟨ready (answering [0x80, 0x00]), 0x80, 0x00, rfl, rfl, fun _ => rfl, rfl, rfl, rfl, rfl, rfl⟩

theorem witness_WrongByteCountRaisesProtocolError :
    (∃ (s : State) (i : Instr) (a : RegAddr) (bs : List Byte), ReadsAt s i a ∧ s.handleOpen = true ∧
      s.cfgState = .configured ∧ ReadAnswerTo s a = some (.bytes bs) ∧ bs.length ≠ 2 ∧ bs.length < 2) ∧
    (∃ (s : State) (i : Instr) (a : RegAddr) (bs : List Byte), ReadsAt s i a ∧ s.handleOpen = true ∧
      s.cfgState = .configured ∧ ReadAnswerTo s a = some (.bytes bs) ∧ bs.length ≠ 2 ∧ ¬ bs.length < 2) :=
  ⟨⟨ready (answering [1]), _, _, [1], .busraw (.inl rfl), rfl, rfl, rfl, by decide, by decide⟩,
    ⟨ready (answering [1, 2, 3]), _, _, [1, 2, 3], .curma (.inr (.inr rfl)), rfl, rfl, rfl, by decide, by decide⟩⟩

/-- A ready machine on an empty mock. -/
def onMock : State := ready (.mock ⟨[], [], []⟩)

theorem witness_MockRoundTrip :
    (∃ (s : State) (m : Mock), s.transport = .mock m ∧ s.handleOpen = true ∧ s.cfgState = .configured ∧
      s.calls + 1 ∉ m.fails ∧ s.calls + 2 ∉ m.fails ∧ m.readBytes.lookup (s.calls + 2) = none) ∧
    (∃ (a : RegAddr) (v : Word), ¬ (a = 0x00 ∧ v.getLsbD 15 = true)) ∧
    (∃ (a : RegAddr) (v : Word), a = 0x00 ∧ v.getLsbD 15 = true) :=
  ⟨⟨onMock, _, rfl, rfl, rfl, by simp, by simp, rfl⟩, ⟨0x00, 0x7FFF, by decide⟩, ⟨0x00, 0x8000, by decide⟩⟩

theorem witness_samples :
    (∃ v : Int, -32768 ≤ v ∧ v ≤ 32767 ∧ v = -32768) ∧ (∃ v : Int, -32768 ≤ v ∧ v ≤ 32767 ∧ v = 32767) ∧
    (∃ (r : F64) (s : Int), shuntROk r = true ∧ -32768 ≤ s ∧ s ≤ 32767) :=
  ⟨⟨-32768, by decide⟩, ⟨32767, by decide⟩, ⟨0x7FEFFFFFFFFFFFFF, -32768, by decide⟩⟩

theorem witness_IntegersConvertExactly : (2 ^ 53 - 1 : Int).natAbs < 2 ^ 53 := by decide

/-- Both clauses of a correct rounding: 1 times 1, and 2 ^ 1023 times 2 or divided by a half, which is 2 ^ 1024. -/
theorem witness_rounding :
    f64IsFinite 0x3FF0000000000000 = true ∧ f64IsFinite 0x4000000000000000 = true ∧
    f64IsFinite 0x7FE0000000000000 = true ∧ f64IsFinite 0x3FE0000000000000 = true ∧
    f64Value 0x3FF0000000000000 = 1 ∧ f64Value 0x4000000000000000 = 2 ∧ f64Value 0x3FE0000000000000 = 1 / 2 ∧
    f64Value 0x7FE0000000000000 = 2 ^ 1023 ∧ |(1 : ℚ)| < 2 ^ 1024 - 2 ^ 970 ∧
    2 ^ 1024 - 2 ^ 970 ≤ |(2 ^ 1023 * 2 : ℚ)| := by
  have h (p : F64) (n : Bool) (m : Nat) (e : Int) (hn : f64Neg p = n) (hm : f64Mant p = m) (he : f64Scale p = e) :
      f64Value p = (if n then -1 else 1) * (m : ℚ) * (2 : ℚ) ^ e := by
    rw [f64Value, hn, hm, he]
  refine ⟨by decide, by decide, by decide, by decide, ?_, ?_, ?_, ?_, ?_, ?_⟩
  · rw [h _ false (2 ^ 52) (-52) (by decide) (by decide) (by decide)]; norm_num
  · rw [h _ false (2 ^ 52) (-51) (by decide) (by decide) (by decide)]; norm_num
  · rw [h _ false (2 ^ 52) (-53) (by decide) (by decide) (by decide)]; norm_num
  · rw [h _ false (2 ^ 52) 971 (by decide) (by decide) (by decide), show (971 : ℤ) = (971 : ℕ) by rfl, zpow_natCast,
      Nat.cast_pow, Nat.cast_ofNat, if_neg (by decide), one_mul, ← pow_add]
  · have h1 : (1 : ℚ) ≤ 2 ^ 970 := one_le_pow₀ (by norm_num)
    have h2 : (2 : ℚ) ^ 1024 = 2 ^ 970 * 2 ^ 54 := by rw [← pow_add]
    rw [abs_one, h2]
    generalize (2 : ℚ) ^ 970 = x at h1
    linarith
  · have h1 : (0 : ℚ) ≤ 2 ^ 970 := by positivity
    have h2 : (2 : ℚ) ^ 1024 = 2 ^ 1023 * 2 := by rw [← pow_succ]
    rw [abs_of_pos (by positivity), h2]
    exact sub_le_self _ h1

theorem witness_FaultsAreRaisedExactlyWhenStated :
    (∃ i s t, s.fault = none ∧ exec i s = .next t ∧ t.fault = some .noHandle) ∧
    (∃ i s t, s.fault = none ∧ exec i s = .next t ∧ t.fault = some .unconfigured) ∧
    (∃ i s t, s.fault = none ∧ exec i s = .next t ∧ t.fault = some .reinit) ∧
    (∃ i s t, s.fault = none ∧ exec i s = .next t ∧ t.fault = some .mockUnwritten) :=
  ⟨⟨.rdreg 0, State.reset, _, rfl, rfl, rfl⟩,
    ⟨.rdreg 0xFF, { onMock with cfgState := .unconfigured }, _, rfl, rfl, rfl⟩,
    ⟨.init, onMock, _, rfl, rfl, rfl⟩, ⟨.curma 3, onMock, _, rfl, rfl, rfl⟩⟩

theorem witness_ErrorsRecordKindAndDiagnostic :
    (∃ s t, step s = .next t ∧ t.fault = none ∧ t.err = 0) ∧ (∃ s t, step s = .next t ∧ t.fault = none ∧ t.err = 4) :=
  ⟨⟨issuing 0x31000000, _, rfl, rfl, rfl⟩, ⟨issuing 0x30000000, _, rfl, rfl, rfl⟩⟩

theorem witness_OnlyInitOpensTheHandle :
    (∃ i s t, exec i s = .next t ∧ s.handleOpen = true) ∧
    (∃ i s t, exec i s = .next t ∧ s.handleOpen = false ∧ t.handleOpen = true) ∧
    (∃ s t, step s = .next t ∧ t.handleOpen ≠ s.handleOpen) :=
  ⟨⟨.rdreg 0, onMock, _, rfl, rfl⟩, ⟨.init, { State.reset with transport := onMock.transport }, _, rfl, rfl, rfl⟩,
    ⟨{ issuing 0x10000000 with transport := onMock.transport }, _, rfl, by decide⟩⟩

/-- The statements about every command that answers a next state: one that faults, and one that makes calls. -/
theorem witness_commands :
    (∃ i s t, s.fault = none ∧ exec i s = .next t ∧ t.fault ≠ none) ∧
    (∃ i s t, s.fault = none ∧ exec i s = .next t ∧ t.fault = none ∧ t.log ≠ s.log) :=
  ⟨⟨.rdreg 0, State.reset, _, rfl, rfl, by decide⟩, ⟨.wrreg 0 0, onMock, _, rfl, rfl, rfl, by decide⟩⟩

theorem witness_OracleAnswersWithItsDraws :
    (∃ (s : State) (d : Draw) (ds : List Draw), s.transport = .oracle (d :: ds)) ∧
    (∃ s : State, s.transport = .oracle []) :=
  ⟨⟨ready failing, _, _, rfl⟩, ⟨State.reset, rfl⟩⟩

theorem witness_MockAnswersFromItsMap :
    (∃ (s : State) (m : Mock) (a : RegAddr) (w : Word), s.transport = .mock m ∧
      m.regs.read a.toNat = some w ∧ s.calls + 1 ∉ m.fails) ∧
    (∃ (s : State) (m : Mock) (a : RegAddr), s.transport = .mock m ∧ m.regs.read a.toNat = none ∧
      s.handleOpen = true ∧ s.cfgState = .configured) :=
  ⟨⟨ready (.mock ⟨[(0xFF, 7)], [2], []⟩), _, 0xFF, 7, rfl, rfl, by decide⟩,
    ⟨onMock, _, 0xFF, rfl, rfl, rfl, rfl⟩⟩

theorem witness_OnlyWritesChangeTheMockMap :
    (∃ i s t m, s.transport = .mock m ∧ exec i s = .next t ∧ StoredBy m s i = some (0xFF, 0x1234)) ∧
    (∃ i s t m, s.transport = .mock m ∧ exec i s = .next t ∧ StoredBy m s i = some (0x00, 0x73FF)) ∧
    (∃ i s t m, s.transport = .mock m ∧ exec i s = .next t ∧ StoredBy m s i = none) :=
  ⟨⟨.wrreg 0xFF 0x1234, onMock, _, _, rfl, rfl, rfl⟩,
    ⟨.init, { State.reset with transport := onMock.transport }, _, _, rfl, rfl, rfl⟩,
    ⟨.rdreg 0, onMock, _, _, rfl, rfl, rfl⟩⟩

/-- The state from which INIT runs on an empty mock meets the invariant. -/
theorem witness_StepKeepsTheInvariant : ∃ s t, Inv s ∧ step s = .next t :=
  ⟨{ issuing 0x10000000 with transport := onMock.transport }, _,
    ⟨⟨rfl, trivial, fun _ => rfl⟩, trivial, by simp [issuing, State.reset], rfl,
      by simp [issuing, State.reset], rfl, rfl, rfl, trivial, by decide⟩, rfl⟩

theorem witness_AssemblerEncodesItsForms :
    (∃ c : Nat, c < 16 ∧ c = 15) ∧ (∃ c : Nat, 16 ≤ c ∧ c = 16) ∧ (∃ a : Nat, a < 256 ∧ a = 255) ∧
    (∃ a : Nat, 256 ≤ a ∧ a = 256) ∧ (∃ v : Int, -32768 ≤ v ∧ v < 65536 ∧ v = -32768) ∧
    (∃ v : Int, -32768 ≤ v ∧ v < 65536 ∧ v = 65535) ∧ (∃ v : Int, (v < -32768 ∨ 65536 ≤ v) ∧ v = -32769) ∧
    (∃ v : Int, (v < -32768 ∨ 65536 ≤ v) ∧ v = 65536) ∧ (∃ b0 b1 : Nat, (256 ≤ b0 ∨ 256 ≤ b1) ∧ b0 < 256) :=
  ⟨⟨15, by decide⟩, ⟨16, by decide⟩, ⟨255, by decide⟩, ⟨256, by decide⟩, ⟨-32768, by decide⟩, ⟨65535, by decide⟩,
    ⟨-32769, by decide⟩, ⟨65536, by decide⟩, ⟨255, 256, by decide⟩⟩

theorem witness_CfgKeysAddUpToTheVector :
    (∃ ks : List CfgKey, ks.Pairwise (fun k k' => sameKey k k' = false) ∧ ∀ k ∈ ks, KeyLegal k) ∧
    (∃ ks : List CfgKey, ¬ (ks.Pairwise (fun k k' => sameKey k k' = false) ∧ ∀ k ∈ ks, KeyLegal k)) :=
  ⟨⟨[.rst 1, .en [3, 1], .avg 7], by simp [sameKey], by simp [KeyLegal, Valid]⟩, ⟨[.avg 8], by simp [KeyLegal]⟩⟩

theorem witness_PseudoInstructionsExpand :
    (∃ ks o, asmOptions ks = .ok o) ∧ (∃ ks e, asmOptions ks = .error e) :=
  ⟨⟨[.mode 7], _, rfl⟩, ⟨[.mode 8], _, rfl⟩⟩

theorem witness_AssembledWordsDecode : ∃ line w, assemble line = .ok w := ⟨.wrreg 255 (-32768), _, rfl⟩

theorem witness_InstancesAreIndependent :
    ∃ instances k after, stepInstance instances k = some after :=
  ⟨[State.reset, issuing 0x31000000], 1, _, rfl⟩

end Sys2Proof.Tests
end

section
/-! SUPPORT. What a command word selects (30_encoding.md R61 to R64), in the fields that the statements name. -/

namespace Sys2Proof.Proofs

open Sys2Proof.Statement

/-! ### Words by their fields -/

/-- The four fields of R61 make up the whole word. -/
theorem command_eq_iff (x y : Command) :
    x = y ↔ opField x = opField y ∧ chField x = chField y ∧ addrField x = addrField y ∧ dataField x = dataField y := by
  refine ⟨by rintro rfl; simp, fun ⟨hop, hch, haddr, hdata⟩ => ?_⟩
  apply BitVec.eq_of_toNat_eq
  replace hop := congrArg BitVec.toNat hop
  replace hch := congrArg BitVec.toNat hch
  replace haddr := congrArg BitVec.toNat haddr
  replace hdata := congrArg BitVec.toNat hdata
  simp only [opField, chField, addrField, dataField, BitVec.extractLsb'_toNat, Nat.shiftRight_eq_div_pow]
    at hop hch haddr hdata
  omega

/-- INIT's reserved 28 bits are the three fields below `op`. -/
theorem reservedN_iff (w : Command) : ReservedN w ↔ chField w = 0 ∧ addrField w = 0 ∧ dataField w = 0 := by
  simp only [ReservedN, ← BitVec.toNat_inj, chField, addrField, dataField, BitVec.extractLsb_toNat,
    BitVec.extractLsb'_toNat, Nat.shiftRight_eq_div_pow, BitVec.ofNat_eq_ofNat, BitVec.toNat_ofNat]
  omega

theorem reservedD_iff (w : Command) : ReservedD w ↔ chField w = 0 ∧ addrField w = 0 := Iff.rfl

theorem reservedA_iff (w : Command) : ReservedA w ↔ chField w = 0 := Iff.rfl

theorem reservedR_iff (w : Command) : ReservedR w ↔ chField w = 0 ∧ dataField w = 0 := Iff.rfl

theorem reservedC_iff (w : Command) : ReservedC w ↔ addrField w = 0 ∧ dataField w = 0 := Iff.rfl

/-! ### Rows -/

/-- The fields that a row's format reserves are zero (R62). -/
def ReservedZero (w : Command) : Op → Prop
  | .init => ReservedN w
  | .cfg | .enc16 | .dec16 | .scalebus => ReservedD w
  | .wrreg => ReservedA w
  | .rdreg => ReservedR w
  | .busaddr | .shuntaddr | .busraw | .shuntraw | .busv | .curma => ReservedC w

/-- A row's mask covers the fields its format reserves and leaves out the others (R62, R63). -/
theorem reservedZero_iff (w : Command) (op : Op) :
    ReservedZero w op ↔ chField w &&& chField (opMask op) = 0 ∧ addrField w &&& addrField (opMask op) = 0 ∧
      dataField w &&& dataField (opMask op) = 0 := by
  have h4 (x : BitVec 4) : x &&& 15#4 = x := BitVec.and_allOnes
  have h8 (x : BitVec 8) : x &&& 255#8 = x := BitVec.and_allOnes
  have h16 (x : BitVec 16) : x &&& 65535#16 = x := BitVec.and_allOnes
  cases op <;> simp [ReservedZero, reservedN_iff, reservedD_iff, reservedA_iff, reservedR_iff, reservedC_iff, opMask,
    chField, addrField, dataField, h4, h8, h16]

/-- A word has a row's `match` under the row's `mask` where it has the row's code and its reserved fields are zero. -/
theorem and_opMask_eq_opMatch_iff (w : Command) (op : Op) :
    w &&& opMask op = opMatch op ↔ opField w = opCode op ∧ ReservedZero w op := by
  have hcode : opField w &&& opField (opMask op) = opField w := by
    rw [show opField (opMask op) = BitVec.allOnes 4 by cases op <;> rfl, BitVec.and_allOnes]
  rw [opMatch_eq, command_eq_iff, reservedZero_iff, ← hcode]
  simp only [opField_commandWord, chField_commandWord, addrField_commandWord, dataField_commandWord]
  simp only [opField, chField, addrField, dataField, BitVec.extractLsb'_and]

/-- An operation code selects the row with that code, and no other. -/
theorem opOfCode_eq_some_iff (code : BitVec 4) (op : Op) : opOfCode code = some op ↔ code = opCode op := by
  constructor
  · revert code; cases op <;> decide
  · rintro rfl; exact opOfCode_opCode op

/-- R63 leaves three operation codes unassigned. -/
theorem opOfCode_eq_none_iff (code : BitVec 4) : opOfCode code = none ↔ code = 0x0 ∨ code = 0xE ∨ code = 0xF := by
  revert code; decide

/-! ### Legal and illegal words -/

/-- The decoder reads a command where a row's code stands in `op` and the row's reserved fields are zero (R70). -/
theorem decode_eq_ok_iff (w : Command) (i : Instr) :
    decode w = .ok i ↔ ∃ op, opField w = opCode op ∧ ReservedZero w op ∧ operandsOf op w = i := by
  cases hop : opOfCode (opField w) with
  | none => simp [decode, hop, ← opOfCode_eq_some_iff]
  | some op =>
    have hmask := and_opMask_eq_opMatch_iff w op
    rw [← opOfCode_eq_some_iff, hop] at hmask
    by_cases hz : ReservedZero w op <;> simp_all [decode, ← opOfCode_eq_some_iff]

/-- A word of an unassigned operation code is illegal. -/
theorem illegalWord_of_unassigned {w : Command} (h : opOfCode (opField w) = none) : IllegalWord w := by
  rcases (opOfCode_eq_none_iff _).mp h with h | h | h
  · exact .inl (congrArg BitVec.toNat h)
  · exact .inr (.inl (congrArg BitVec.toNat h))
  · exact .inr (.inr (.inl (congrArg BitVec.toNat h)))

/-- A word of a row's operation code is illegal where a field that the row reserves is not zero. -/
theorem illegalWord_iff_of_opField {w : Command} {op : Op} (h : opField w = opCode op) :
    IllegalWord w ↔ ¬ ReservedZero w op := by
  have hcode : (w.extractLsb 31 28).toNat = (opCode op).toNat := congrArg BitVec.toNat h
  unfold IllegalWord
  rw [hcode]
  cases op <;> simp [opCode, ReservedZero]

/-- The legal words are those that the decoder reads a command from (R64). -/
theorem not_illegalWord_iff (w : Command) : ¬ IllegalWord w ↔ ∃ i, decode w = .ok i := by
  simp only [decode_eq_ok_iff]
  cases hop : opOfCode (opField w) with
  | none => simp [illegalWord_of_unassigned hop, ← opOfCode_eq_some_iff, hop]
  | some op =>
    rw [illegalWord_iff_of_opField ((opOfCode_eq_some_iff _ _).mp hop)]
    simp [← opOfCode_eq_some_iff, hop]

/-- The words that the decoder refuses are the illegal ones (R64). -/
theorem illegalWord_of_decode_error {w : Command} {e : Illegal} (h : decode w = .error e) : IllegalWord w := by
  by_contra hlegal
  obtain ⟨i, hi⟩ := (not_illegalWord_iff w).mp hlegal
  rw [h] at hi
  cases hi

/-! ### Operands -/

/-- The channel operand of a command that has one. -/
def channelOperand : Instr → Option Nat
  | .busaddr c | .shuntaddr c | .busraw c | .shuntraw c | .busv c | .curma c => some c
  | .init | .cfg _ | .wrreg _ _ | .rdreg _ | .enc16 _ | .dec16 _ _ | .scalebus _ => none

/-- A decoded command's channel is the field `ch` of its word (R61). -/
theorem channelOperand_of_decode {w : Command} {i : Instr} {c : Nat} (h : decode w = .ok i)
    (hc : channelOperand i = some c) : c = ChannelOf w := by
  obtain ⟨op, -, -, rfl⟩ := (decode_eq_ok_iff w i).mp h
  have hch : (chField w).toNat = ChannelOf w := rfl
  cases op <;> simp_all [operandsOf, channelOperand]

/-- INIT has one command word. -/
theorem eq_of_decode_init {w : Command} (h : decode w = .ok .init) : w = 0x10000000 := by
  obtain ⟨op, hop, hz, hi⟩ := (decode_eq_ok_iff w _).mp h
  have hmask := (and_opMask_eq_opMatch_iff w op).mpr ⟨hop, hz⟩
  cases op <;> simp only [operandsOf, reduceCtorEq] at hi
  rwa [show opMask .init = BitVec.allOnes 32 from rfl, BitVec.and_allOnes] at hmask

end Sys2Proof.Proofs
end

section
/-! SUPPORT. Everything one command can do, said once: its faults, the transport calls it makes and the state
they leave, and how it ends (60_exceptions.md R145, R146; 20_memory.md R52). -/

namespace Sys2Proof.Proofs

open Sys2Proof.Machine Sys2Proof.Config Sys2Proof.Safety Sys2Proof.Statement

/-! ### The state after a call -/

/-- INIT's state after its `open` was answered ok (40_config_word.md R83). -/
def Opened (s : State) : State := { AfterOpen s .ok with handleOpen := true }

@[simp] theorem Opened_params (s : State) : (Opened s).params = s.params := rfl
@[simp] theorem Opened_pc (s : State) : (Opened s).pc = s.pc := rfl
@[simp] theorem Opened_handleOpen (s : State) : (Opened s).handleOpen = true := rfl
@[simp] theorem Opened_cfgState (s : State) : (Opened s).cfgState = s.cfgState := rfl
@[simp] theorem Opened_fault (s : State) : (Opened s).fault = s.fault := rfl
@[simp] theorem Opened_log (s : State) : (Opened s).log = s.log ++ [.openBus s.params.busId .ok] := rfl

/-- The state after a write of `v` at `a` that was answered `r`, cfg_state included. -/
def Wrote (s : State) (a : RegAddr) (v : Word) (r : Ack) : State := (AfterWrite s a (wireBytes v) r).noteWrite a v r

@[simp] theorem Wrote_params (s : State) (a : RegAddr) (v : Word) (r : Ack) : (Wrote s a v r).params = s.params :=
  State.noteWrite_params ..
@[simp] theorem Wrote_pc (s : State) (a : RegAddr) (v : Word) (r : Ack) : (Wrote s a v r).pc = s.pc :=
  State.noteWrite_pc ..
@[simp] theorem Wrote_handleOpen (s : State) (a : RegAddr) (v : Word) (r : Ack) :
    (Wrote s a v r).handleOpen = s.handleOpen := State.noteWrite_handleOpen ..
@[simp] theorem Wrote_fault (s : State) (a : RegAddr) (v : Word) (r : Ack) : (Wrote s a v r).fault = s.fault :=
  State.noteWrite_fault ..
@[simp] theorem Wrote_log (s : State) (a : RegAddr) (v : Word) (r : Ack) :
    (Wrote s a v r).log = s.log ++ [.write s.params.deviceAddr a 2 (wireBytes v) r] := State.noteWrite_log ..

/-- Bit 15 of a word is the top bit of the byte that goes first on the wire. -/
theorem getElem_hiByte (v : Word) : (hiByte v)[7] = configRst v := by simp [hiByte, configRst]

/-- A write leaves cfg_state as the table of 10_state.md R25 says of its entry in LOG. -/
@[simp] theorem Wrote_cfgState (s : State) (a : RegAddr) (v : Word) (r : Ack) :
    (Wrote s a v r).cfgState =
      cfgAfterEntry s.cfgState (.write s.params.deviceAddr a 2 (wireBytes v) r) := by
  by_cases ha : a = configAddr
  · subst ha
    rw [Wrote, State.noteWrite_cfgState_config]
    cases r <;> simp [cfgAfterEntry, configAddr, wireBytes, enc16, getElem_hiByte]
  · rw [Wrote, State.noteWrite_of_ne _ _ _ ha]
    exact (if_neg ha).symm

/-! ### What a command can do -/

/-- A command takes a fault of 60_exceptions.md R145, before any call. -/
inductive FaultCause (s : State) : Instr → Fault → Prop where
  | writeNoHandle (a : RegAddr) (v : Word) (hopen : s.handleOpen = false) : FaultCause s (.wrreg a v) .noHandle
  | readNoHandle {i : Instr} {a : RegAddr} (hi : ReadsAt s i a) (hopen : s.handleOpen = false) :
      FaultCause s i .noHandle
  | readUnconfigured {i : Instr} {a : RegAddr} (hi : ReadsAt s i a) (hopen : s.handleOpen = true)
      (hcfg : s.cfgState = .unconfigured) : FaultCause s i .unconfigured
  | readUnwritten {i : Instr} {a : RegAddr} (hi : ReadsAt s i a) (hopen : s.handleOpen = true)
      (hcfg : s.cfgState = .configured) (hr : ReadAnswerTo s a = none) : FaultCause s i .mockUnwritten
  | reinit (hopen : s.handleOpen = true) : FaultCause s .init .reinit

/-- The error that the answer to a write raises (42_register_io.md R102). -/
def writeError : Ack → Option (ErrKind × ErrInfo)
  | .ok => none
  | .fail => some (.transportError, .writeFailed)

/-- The error that the answer to a read raises (42_register_io.md R103). -/
def readError : ReadAnswer → Option (ErrKind × ErrInfo)
  | .fail => some (.transportError, .readFailed)
  | .bytes bs =>
    if bs.length < 2 then some (.protocolError, .shortRead bs.length)
    else if 2 < bs.length then some (.protocolError, .longRead bs.length)
    else none

/-- A command that does not fault makes its checks and calls, which leave a state and may raise an error. -/
inductive CallsDone (s : State) : Instr → State → Option (ErrKind × ErrInfo) → Prop where
  | computes {i : Instr} (hinit : i ≠ .init) (hwrite : ∀ a v, i ≠ .wrreg a v) (hread : ∀ a, ¬ ReadsAt s i a) :
      CallsDone s i s none
  | badChannel {i : Instr} {c : Nat} (hc : channelOperand i = some c) (hv : ¬ Valid c) :
      CallsDone s i s (some (.preconditionError, .badChannel c))
  | openFailed (hopen : s.handleOpen = false) (hr : OpenAnswer s = .fail) :
      CallsDone s .init (AfterOpen s .fail) (some (.openError, .openFailed))
  | opened {r : Ack} (hopen : s.handleOpen = false) (ho : OpenAnswer s = .ok)
      (hr : WriteAnswer (Opened s) configAddr (wireBytes defaultConfig) = r) :
      CallsDone s .init (Wrote (Opened s) configAddr defaultConfig r) (writeError r)
  | wrote {a : RegAddr} {v : Word} {r : Ack} (hopen : s.handleOpen = true) (hr : WriteAnswer s a (wireBytes v) = r) :
      CallsDone s (.wrreg a v) (Wrote s a v r) (writeError r)
  | read {i : Instr} {a : RegAddr} {r : ReadAnswer} (hi : ReadsAt s i a) (hopen : s.handleOpen = true)
      (hcfg : s.cfgState = .configured) (hr : ReadAnswerTo s a = some r) :
      CallsDone s i (AfterRead s a r) (readError r)

/-- A command that does not fault ends: it raises the error its checks and calls gave, or else returns a value. -/
inductive Ends (c : State) : Option (ErrKind × ErrInfo) → State → Prop where
  | value (v : Out) (hv : v ≠ .none) : Ends c none (c.returnValue v)
  | error (k : ErrKind) (info : ErrInfo) : Ends c (some (k, info)) (c.raise k info)

/-- What a command can do: it faults, or it makes its calls and ends. -/
inductive Effect (s : State) (i : Instr) (t : State) : Prop where
  | faults {f : Fault} (hf : FaultCause s i f) (ht : t = s.takeFault f)
  | ends {c : State} {e : Option (ErrKind × ErrInfo)} (hc : CallsDone s i c e) (he : Ends c e t)

/-! ### Every command does one of these -/

/-- The model's bus-register address is the statements' (41_address.md R91). -/
theorem busAddr_eq {c : Nat} (h : Valid c) : busAddr c = BusRegister c := by
  rcases h with rfl | rfl | rfl <;> rfl

/-- The model's shunt-register address is the statements' (41_address.md R92). -/
theorem shuntAddr_eq (bank : ShuntBank) {c : Nat} (h : Valid c) : shuntAddr bank c = ShuntRegister bank c := by
  cases bank <;> rcases h with rfl | rfl | rfl <;> rfl

/-- A command that returns a value without looking at the transport. -/
theorem returnValue_effect {s : State} {i : Instr} {v : Out} (hinit : i ≠ .init) (hwrite : ∀ a v, i ≠ .wrreg a v)
    (hread : ∀ a, ¬ ReadsAt s i a) (hv : v ≠ .none) : Effect s i (s.returnValue v) :=
  .ends (.computes hinit hwrite hread) (.value v hv)

/-- A channel command raises BAD_CHANNEL or does its own work. -/
theorem onChannel_effect {s k : State} {i : Instr} {c : Nat} (hc : channelOperand i = some c)
    (hk : Valid c → Effect s i k) : Effect s i (s.onChannel c k) := by
  cases hv : validCh c with
  | true =>
    rw [State.onChannel_valid _ _ hv]
    exact hk ((validCh_iff c).mp hv)
  | false =>
    rw [State.onChannel_invalid _ _ hv]
    exact .ends (.badChannel hc fun h => by simp [(validCh_iff c).mpr h] at hv) (.error ..)

/-- A command that makes one register read. -/
theorem readAndReturn_effect {s : State} {i : Instr} {a : RegAddr} {result : Int → Out} (hi : ReadsAt s i a)
    (hv : ∀ n, result n ≠ .none) : Effect s i (s.readAndReturn a result) := by
  rcases State.readAndReturn_cases s a result with
    ⟨hopen, e⟩ | ⟨hopen, hcfg, e⟩ | ⟨hopen, hcfg, hr, e⟩ | ⟨hopen, hcfg, r, t, hr, rfl, hends⟩
  · exact .faults (.readNoHandle hi hopen) e
  · exact .faults (.readUnconfigured hi hopen hcfg) e
  · exact .faults (.readUnwritten hi hopen hcfg hr) e
  · refine .ends (.read hi hopen hcfg hr) ?_
    rcases hends with ⟨rfl, e⟩ | ⟨b0, b1, rfl, e⟩ | ⟨bs, rfl, hlt, e⟩ | ⟨bs, rfl, hgt, e⟩ <;> rw [e]
    · exact .error ..
    · exact .value _ (hv _)
    · rw [readError, if_pos hlt]; exact .error ..
    · rw [readError, if_neg (by omega), if_pos hgt]; exact .error ..

/-- A register write with an open handle makes its call and ends; both INIT and WRREG end so. -/
theorem writeRegister_ends {s : State} (a : RegAddr) (v : Word) (hopen : s.handleOpen = true) :
    Ends (Wrote s a v (WriteAnswer s a (wireBytes v))) (writeError (WriteAnswer s a (wireBytes v)))
      (flowEnd (s.writeRegister a v) fun _ s' => s'.returnValue .unit) := by
  rcases State.writeRegister_cases s a v with ⟨hclosed, -⟩ | ⟨-, r, hr, e⟩
  · simp [hopen] at hclosed
  · rw [show WriteAnswer s a (wireBytes v) = r from hr, e]
    cases r with
    | ok => exact .value _ (by simp)
    | fail => exact .error ..

theorem wrreg_effect (s : State) (a : RegAddr) (v : Word) :
    Effect s (.wrreg a v) (flowEnd (s.writeRegister a v) fun _ s' => s'.returnValue .unit) := by
  cases hopen : s.handleOpen with
  | true => exact .ends (.wrote hopen rfl) (writeRegister_ends a v hopen)
  | false => exact .faults (.writeNoHandle a v hopen) (by simp [State.writeRegister, hopen])

theorem init_effect (s : State) : Effect s .init (initState s) := by
  unfold initState
  cases hopen : s.handleOpen with
  | true => exact .faults (.reinit hopen) rfl
  | false =>
    rw [State.openBus_eq]
    cases ho : OpenAnswer s with
    | fail =>
      rw [show transportAck s.transport (s.calls + 1) (.openBus s.params.busId) = .fail from ho]
      exact .ends (.openFailed hopen ho) (.error ..)
    | ok =>
      rw [show transportAck s.transport (s.calls + 1) (.openBus s.params.busId) = .ok from ho]
      exact .ends (.opened hopen ho rfl) (writeRegister_ends _ _ (Opened_handleOpen s))

/-- Everything a command can do, for every command. -/
theorem exec_effect {i : Instr} {s t : State} (h : exec i s = .next t) : Effect s i t := by
  cases i <;> cases h
  case init => exact init_effect s
  case wrreg a v => exact wrreg_effect s a v
  case rdreg a => exact readAndReturn_effect (.rdreg a) (by simp)
  case busaddr | shuntaddr =>
    exact onChannel_effect rfl fun _ => returnValue_effect (by simp) (by simp) nofun (by simp)
  case busraw => exact onChannel_effect rfl fun hv => readAndReturn_effect (busAddr_eq hv ▸ .busraw hv) (by simp)
  case busv => exact onChannel_effect rfl fun hv => readAndReturn_effect (busAddr_eq hv ▸ .busv hv) (by simp)
  case shuntraw =>
    exact onChannel_effect rfl fun hv => readAndReturn_effect (shuntAddr_eq _ hv ▸ .shuntraw hv) (by simp)
  case curma =>
    exact onChannel_effect rfl fun hv => readAndReturn_effect (shuntAddr_eq _ hv ▸ .curma hv) (by simp)
  case cfg | enc16 | dec16 | scalebus => exact returnValue_effect (by simp) (by simp) nofun (by simp)

/-- Everything a step that answers a next state can have done: it ran the command that its word decodes to, or raised
the error of an illegal word. -/
theorem step_effect {s t : State} (h : step s = .next t) :
    s.fault = none ∧ ∃ w, s.program[s.pc]? = some w ∧
      ((∃ i, decode w = .ok i ∧ exec i s = .next t ∧ Effect s i t) ∨
        (IllegalWord w ∧ t = s.raise .preconditionError .illegalCommand)) := by
  obtain ⟨-, hfault, w, hw, ⟨i, hi, he⟩ | ⟨e, he, rfl⟩⟩ := step_next_cases h
  · exact ⟨hfault, w, hw, .inl ⟨i, hi, he, exec_effect he⟩⟩
  · exact ⟨hfault, w, hw, .inr ⟨illegalWord_of_decode_error he, rfl⟩⟩

/-! ### What a command's end changes -/

section Ends

variable {c t : State} {e : Option (ErrKind × ErrInfo)}

theorem Ends.handleOpen_eq (h : Ends c e t) : t.handleOpen = c.handleOpen := by cases h <;> rfl
theorem Ends.cfgState_eq (h : Ends c e t) : t.cfgState = c.cfgState := by cases h <;> rfl
theorem Ends.log_eq (h : Ends c e t) : t.log = c.log := by cases h <;> rfl
theorem Ends.fault_eq (h : Ends c e t) : t.fault = c.fault := by cases h <;> rfl
theorem Ends.pc_eq (h : Ends c e t) : t.pc = c.pc + 1 := by cases h <;> rfl

end Ends

/-! ### What a command's calls change -/

section CallsDone

variable {s c : State} {i : Instr} {e : Option (ErrKind × ErrInfo)}

theorem CallsDone.pc_eq (h : CallsDone s i c e) : c.pc = s.pc := by cases h <;> simp [AfterOpen, AfterRead]

theorem CallsDone.fault_eq (h : CallsDone s i c e) : c.fault = s.fault := by cases h <;> simp [AfterOpen, AfterRead]

/-- An answered open is the only call that changes handle_open (10_state.md R24). -/
theorem CallsDone.handleOpen_iff (h : CallsDone s i c e) :
    c.handleOpen = true ↔ s.handleOpen = true ∨ (i = .init ∧ OpenAnswer s = .ok) := by
  cases h with
  | computes hinit => simp [hinit]
  | badChannel hc =>
    have hinit : i ≠ .init := by rintro rfl; cases hc
    simp [hinit]
  | openFailed hopen hr => simp [AfterOpen, hopen, hr]
  | opened _ ho => simp [ho]
  | wrote => simp
  | read _ hopen => simp [AfterRead, hopen]

/-- cfg_state follows the calls that were logged (10_state.md R25). -/
theorem CallsDone.cfgState_eq (h : CallsDone s i c e) :
    ∃ made, c.log = s.log ++ made ∧ c.cfgState = made.foldl cfgAfterEntry s.cfgState := by
  cases h with
  | computes | badChannel => exact ⟨[], by simp, rfl⟩
  | openFailed => exact ⟨[_], rfl, rfl⟩
  | opened => exact ⟨[_, _], by rw [Wrote_log, Opened_log, List.append_assoc]; rfl, Wrote_cfgState ..⟩
  | wrote => exact ⟨[_], Wrote_log .., by simp⟩
  | read => exact ⟨[_], rfl, rfl⟩

end CallsDone

end Sys2Proof.Proofs
end

section
/-! SUPPORT. The block's registers and its bookkeeping state: pc, ERR and ERRINFO, handle_open and cfg_state after a
command or a step (10_state.md R22 to R25, R29, R37). -/

namespace Sys2Proof.Proofs

open Sys2Proof.Machine Sys2Proof.Config Sys2Proof.Safety Sys2Proof.Statement

/-- Settles O9. -/
theorem resetIsTheLaunchState : Obligations.ResetIsTheLaunchState :=
  ⟨rfl, rfl, rfl, rfl, rfl, rfl, rfl, rfl⟩

/-! ### pc -/

/-- A command that does not fault advances pc, and one that faults leaves it (10_state.md R28, R29). -/
theorem Effect.pc_fault {s t : State} {i : Instr} (h : Effect s i t) :
    (t.fault = s.fault ∧ t.pc = s.pc + 1) ∨ (t.fault ≠ none ∧ t.pc = s.pc) := by
  cases h with
  | faults _ ht => subst ht; exact .inr ⟨by simp, rfl⟩
  | ends hc he => exact .inl ⟨he.fault_eq.trans hc.fault_eq, by rw [he.pc_eq, hc.pc_eq]⟩

/-- Settles O12: by what a step can do, and since the program has no command at its length. -/
theorem pcCountsCommands : Obligations.PcCountsCommands := by
  refine ⟨rfl, fun s t h => ?_, fun s hend t h => ?_⟩
  · obtain ⟨hfault, w, -, ⟨i, -, -, heff⟩ | ⟨-, rfl⟩⟩ := step_effect h
    · rcases heff.pc_fault with ⟨hf, hpc⟩ | ⟨hf, hpc⟩
      · exact ⟨fun _ => hpc, fun hne => absurd (hf.trans hfault) hne⟩
      · exact ⟨fun hnone => absurd hnone hf, fun _ => hpc⟩
    · exact ⟨fun _ => rfl, fun hne => absurd hfault hne⟩
  · obtain ⟨-, w, hw, -⟩ := step_effect h
    simp [hend] at hw

/-! ### ERR and ERRINFO -/

/-- How ERR, ERRINFO and OUT tell a success from an error (10_state.md R21 to R23). -/
theorem Ends.outcome {c t : State} {e : Option (ErrKind × ErrInfo)} (h : Ends c e t) :
    (t.err = 0 ∧ t.errinfo = .none ∧ t.out ≠ .none) ∨
    ∃ k info, e = some (k, info) ∧ t.out = .none ∧ t.err = errCode k ∧ t.errinfo = info := by
  cases h with
  | value v hv => exact .inl ⟨rfl, rfl, hv⟩
  | error k info => exact .inr ⟨k, info, rfl, rfl, rfl, rfl⟩

theorem writeError_eq_some {r : Ack} {k : ErrKind} {info : ErrInfo} (h : writeError r = some (k, info)) :
    r = .fail ∧ k = .transportError ∧ info = .writeFailed := by
  cases r <;> cases h
  exact ⟨rfl, rfl, rfl⟩

theorem readError_eq_some {r : ReadAnswer} {k : ErrKind} {info : ErrInfo} (h : readError r = some (k, info)) :
    (r = .fail ∧ k = .transportError ∧ info = .readFailed) ∨
    ∃ bs, r = .bytes bs ∧ k = .protocolError ∧
      ((bs.length < 2 ∧ info = .shortRead bs.length) ∨ (2 < bs.length ∧ info = .longRead bs.length)) := by
  cases r with
  | fail => cases h; exact .inl ⟨rfl, rfl, rfl⟩
  | bytes bs =>
    refine .inr ⟨bs, rfl, ?_⟩
    simp only [readError] at h
    split at h
    case isTrue hlt => cases h; exact ⟨rfl, .inl ⟨hlt, rfl⟩⟩
    case isFalse =>
      split at h <;> cases h
      case isTrue hgt => exact ⟨rfl, .inr ⟨hgt, rfl⟩⟩

/-- The last call of LOG, or the command's channel, shows the cause of the error a command raises. -/
inductive ErrorCause (s : State) (i : Instr) (c : State) : ErrKind → ErrInfo → Prop where
  | openFailed (h : c.log.getLast? = some (.openBus s.params.busId .fail)) :
      ErrorCause s i c .openError .openFailed
  | writeFailed {a : RegAddr} {bs : List Byte}
      (h : c.log.getLast? = some (.write s.params.deviceAddr a 2 bs .fail)) :
      ErrorCause s i c .transportError .writeFailed
  | readFailed {a : RegAddr} (h : c.log.getLast? = some (.read s.params.deviceAddr a 2 .fail)) :
      ErrorCause s i c .transportError .readFailed
  | wrongCount {a : RegAddr} {bs : List Byte} {info : ErrInfo}
      (h : c.log.getLast? = some (.read s.params.deviceAddr a 2 (.bytes bs)))
      (hinfo : (bs.length < 2 ∧ info = .shortRead bs.length) ∨ (2 < bs.length ∧ info = .longRead bs.length)) :
      ErrorCause s i c .protocolError info
  | badChannel {ch : Nat} (hc : channelOperand i = some ch) (hv : ¬ Valid ch) :
      ErrorCause s i c .preconditionError (.badChannel ch)

/-- Every error that a command's checks and calls raise has its cause. -/
theorem CallsDone.errorCause {s c : State} {i : Instr} {e : Option (ErrKind × ErrInfo)} (h : CallsDone s i c e)
    {k : ErrKind} {info : ErrInfo} (he : e = some (k, info)) : ErrorCause s i c k info := by
  cases h with
  | computes => cases he
  | badChannel hc hv => cases he; exact .badChannel hc hv
  | openFailed => cases he; exact .openFailed List.getLast?_concat
  | opened | wrote =>
    obtain ⟨rfl, rfl, rfl⟩ := writeError_eq_some he
    exact .writeFailed (by rw [Wrote_log]; exact List.getLast?_concat)
  | read =>
    rcases readError_eq_some he with ⟨rfl, rfl, rfl⟩ | ⟨bs, rfl, rfl, hinfo⟩
    · exact .readFailed List.getLast?_concat
    · exact .wrongCount List.getLast?_concat hinfo

/-- Settles O43: a step without a fault ended with a value or with an error, and the error has its cause. -/
theorem errorsRecordKindAndDiagnostic : Obligations.ErrorsRecordKindAndDiagnostic := by
  refine ⟨rfl, rfl, fun s t h hnone => ?_⟩
  obtain ⟨-, w, hw, ⟨i, hi, -, heff⟩ | ⟨hill, rfl⟩⟩ := step_effect h
  · cases heff with
    | faults _ ht => simp [ht] at hnone
    | ends hc he =>
      rcases he.outcome with hok | ⟨k, info, hsome, hout, herr, rfl⟩
      · exact .inl hok
      · refine .inr ⟨hout, ?_⟩
        rw [he.log_eq, herr]
        generalize t.errinfo = info at hsome
        cases hc.errorCause hsome with
        | openFailed hlast => exact .inl ⟨rfl, rfl, hlast⟩
        | writeFailed hlast => exact .inr (.inl ⟨rfl, rfl, _, _, hlast⟩)
        | readFailed hlast => exact .inr (.inr (.inl ⟨rfl, rfl, _, hlast⟩))
        | wrongCount hlast hinfo => exact .inr (.inr (.inr (.inl ⟨rfl, _, _, hlast, hinfo⟩)))
        | badChannel hch hv =>
          have hlegal : ¬ IllegalWord w := (not_illegalWord_iff w).mpr ⟨i, hi⟩
          obtain rfl := channelOperand_of_decode hi hch
          exact .inr (.inr (.inr (.inr ⟨rfl, w, hw, .inr ⟨hlegal, hv, rfl⟩⟩)))
  · exact .inr ⟨rfl, .inr (.inr (.inr (.inr ⟨rfl, w, hw, .inl ⟨hill, rfl⟩⟩)))⟩

/-! ### handle_open -/

/-- A handle is open after a command exactly where it was open before or the command is an INIT whose open succeeded. -/
theorem Effect.handleOpen_iff {s t : State} {i : Instr} (h : Effect s i t) :
    t.handleOpen = true ↔ s.handleOpen = true ∨ (i = .init ∧ OpenAnswer s = .ok) := by
  cases h with
  | ends hc he => rw [he.handleOpen_eq, hc.handleOpen_iff]
  | faults hf ht =>
    subst ht
    cases hf with
    | writeNoHandle => simp
    | readNoHandle hi =>
      have hinit : i ≠ .init := by rintro rfl; cases hi
      simp [hinit]
    | readUnconfigured _ hopen | readUnwritten _ hopen | reinit hopen => simp [hopen]

/-- Settles O44: by what a command does to the handle, and since INIT has one word. -/
theorem onlyInitOpensTheHandle : Obligations.OnlyInitOpensTheHandle := by
  refine ⟨rfl, fun i s t h => ?_, fun s t h hne => ?_⟩
  · have hiff := (exec_effect h).handleOpen_iff
    exact ⟨fun hopen => hiff.mpr (.inl hopen), fun hclosed => by simpa [hclosed] using hiff⟩
  · obtain ⟨-, w, hw, ⟨i, hi, -, heff⟩ | ⟨-, rfl⟩⟩ := step_effect h
    · have hiff := heff.handleOpen_iff
      cases hs : s.handleOpen with
      | true => exact absurd ((hiff.mpr (.inl hs)).trans hs.symm) hne
      | false =>
        have ht : t.handleOpen = true := by simpa [hs] using hne
        obtain ⟨rfl, -⟩ := (hiff.mp ht).resolve_left (by simp [hs])
        exact ⟨rfl, eq_of_decode_init hi ▸ hw⟩
    · exact absurd rfl hne

/-! ### cfg_state -/

/-- Settles O45: a faulting command logs no call and keeps cfg_state; any other changes it by its calls alone. -/
theorem cfgStateFollowsConfigWrites : Obligations.CfgStateFollowsConfigWrites := by
  refine ⟨rfl, fun i s t h => ?_⟩
  cases exec_effect h with
  | faults _ ht => subst ht; exact ⟨[], by simp, rfl⟩
  | ends hc he =>
    obtain ⟨made, hlog, hcfg⟩ := hc.cfgState_eq
    exact ⟨made, he.log_eq.trans hlog, he.cfgState_eq.trans hcfg⟩

end Sys2Proof.Proofs
end

section
/-! SUPPORT. The device memory: the byte counts of the transfers (20_memory.md R45), and the mock transport's answers
and stores (20_memory.md R51; 60_exceptions.md R145). -/

namespace Sys2Proof.Proofs

open Sys2Proof.Machine Sys2Proof.Config Sys2Proof.Safety Sys2Proof.Statement

/-! ### The calls a command logs -/

/-- Every call that a command logs has the arguments of 20_memory.md R45 and R50. -/
theorem CallsDone.entriesOk {s c : State} {i : Instr} {e : Option (ErrKind × ErrInfo)} (h : CallsDone s i c e) :
    ∃ made, c.log = s.log ++ made ∧ ∀ entry ∈ made, entryOk s.params entry := by
  cases h with
  | computes | badChannel => exact ⟨[], by simp⟩
  | openFailed => exact ⟨[_], rfl, by simp [entryOk]⟩
  | opened =>
    refine ⟨[_, _], by rw [Wrote_log, Opened_log, List.append_assoc]; rfl, ?_⟩
    simp [entryOk, wireBytes]
  | wrote => exact ⟨[_], Wrote_log .., by simp [entryOk, wireBytes]⟩
  | read => exact ⟨[_], rfl, by simp [entryOk]⟩

/-- A faulting command logs nothing (10_state.md R28); any other logs well-formed calls. -/
theorem Effect.entriesOk {s t : State} {i : Instr} (h : Effect s i t) :
    ∃ made, t.log = s.log ++ made ∧ ∀ entry ∈ made, entryOk s.params entry := by
  cases h with
  | faults _ ht => subst ht; exact ⟨[], by simp⟩
  | ends hc he => rw [he.log_eq]; exact hc.entriesOk

/-- Settles O48: the byte counts are part of what makes a logged call well formed. -/
theorem transfersAreTwoBytes : Obligations.TransfersAreTwoBytes := by
  intro i s t h
  obtain ⟨made, hlog, hok⟩ := (exec_effect h).entriesOk
  refine ⟨made, hlog, fun d a n bs r hmem => ?_, fun d a n r hmem => ?_⟩
  · obtain ⟨-, hcount, hlen⟩ := hok _ hmem
    exact ⟨hcount, hlen⟩
  · obtain ⟨-, hcount⟩ := hok _ hmem
    exact hcount

/-! ### The mock transport -/

theorem mockFails_iff (m : Mock) (n : Nat) : mockFails m n = true ↔ n ∈ m.fails := List.contains_iff_mem

/-- The mock answers an `open` or a write `ok`, unless the test states that the call fails. -/
theorem transportAck_mock (m : Mock) (n : Nat) (call : TransportCall) :
    transportAck (.mock m) n call = if n ∈ m.fails then .fail else .ok := by
  simp only [transportAck, mockFails_iff]

/-- The mock answers a read of an address that holds `w` with `w`'s bytes or those the test names for the call, unless
the test states that the call fails. -/
theorem mockReadAnswer_of_read {m : Mock} {a : RegAddr} {w : Word} (n : Nat) (h : m.regs.read a.toNat = some w) :
    mockReadAnswer m n a =
      some (if n ∈ m.fails then .fail else .bytes ((m.readBytes.lookup n).getD (wireBytes w))) := by
  simp only [mockReadAnswer, h, mockFails_iff]
  by_cases hf : n ∈ m.fails
  · simp [hf]
  · cases m.readBytes.lookup n <;> simp [hf]

/-- On the mock, the answer to a read is the mock's. -/
theorem readAnswerTo_mock {s : State} {m : Mock} (a : RegAddr) (h : s.transport = .mock m) :
    ReadAnswerTo s a = mockReadAnswer m (s.calls + 1) a := by
  rw [ReadAnswerTo, h, transportReadAnswer]

/-- A read that the transport has no answer to is the mock's fault, where neither earlier fault of 60_exceptions.md
R148 stands before it. -/
theorem readAndReturn_unwritten {s : State} {a : RegAddr} (result : Int → Out) (hopen : s.handleOpen = true)
    (hcfg : s.cfgState = .configured) (hr : ReadAnswerTo s a = none) :
    s.readAndReturn a result = s.takeFault .mockUnwritten := by
  simp [State.readAndReturn, State.readRegister, hopen, hcfg, State.memRead_eq s a none hr]

/-- Settles O51: by the mock's answers, and by what its map reads as after a store. -/
theorem mockAnswersFromItsMap : Obligations.MockAnswersFromItsMap := by
  refine ⟨fun s m a bs hm => ?acks, fun m a b0 b1 => ?stores, fun m a bs => rfl, fun s m a w hm hw => ?reads,
    fun s m a hm hnone => ?unwritten⟩
  case acks =>
    rw [OpenAnswer, WriteAnswer, hm]
    exact ⟨transportAck_mock .., transportAck_mock ..⟩
  case stores =>
    exact ⟨_, rfl, Memory.read_write_same .., fun b hb => Memory.read_write_other _ _ hb⟩
  case reads =>
    rw [readAnswerTo_mock a hm, mockReadAnswer_of_read _ hw, wireBytes_eq]
  case unwritten =>
    have hr : ReadAnswerTo s a = none := by rw [readAnswerTo_mock a hm, mockReadAnswer_eq_none, hnone]
    exact ⟨hr, fun hopen hcfg => congrArg _ (readAndReturn_unwritten .i hopen hcfg hr)⟩

end Sys2Proof.Proofs
end


section
/-! SUPPORT. The decoder by the opcode map: the row that a word selects and its operands, CFG's options vector, and what
an illegal word runs (30_encoding.md R63 to R66, R70). -/

namespace Sys2Proof.Proofs

open Sys2Proof.Machine Sys2Proof.Statement

/-! ### The opcode map -/

theorem rowOf_operandsOf (op : Op) (w : Command) : rowOf (operandsOf op w) = op := by cases op <;> rfl

/-- A word decodes to a command where the command's row selects the word and reads the command's operands from it. -/
theorem decode_eq_ok_iff_row (w : Command) (i : Instr) :
    decode w = .ok i ↔ w &&& opMask (rowOf i) = opMatch (rowOf i) ∧ i = operandsOf (rowOf i) w := by
  simp only [decode_eq_ok_iff, and_opMask_eq_opMatch_iff]
  constructor
  · rintro ⟨op, hop, hz, rfl⟩
    simp only [rowOf_operandsOf]
    exact ⟨⟨hop, hz⟩, trivial⟩
  · rintro ⟨⟨hop, hz⟩, hi⟩
    exact ⟨rowOf i, hop, hz, hi.symm⟩

/-- The same, with what it takes for the command to have the word's operands (`Instr`'s `injEq` of its constructor). -/
theorem decode_eq_ok_iff_operands {w : Command} {i : Instr} {operands : Prop}
    (h : (i = operandsOf (rowOf i) w) = operands) :
    decode w = .ok i ↔ w &&& opMask (rowOf i) = opMatch (rowOf i) ∧ operands :=
  h ▸ decode_eq_ok_iff_row w i

/-- DEC16's first operand, by its place in the word (R65). -/
theorem hiByte_dataField (w : Command) : hiByte (dataField w) = w.extractLsb 15 8 := by
  simp [hiByte, dataField, BitVec.extractLsb]

/-- DEC16's second operand, by its place in the word (R65). -/
theorem loByte_dataField (w : Command) : loByte (dataField w) = w.extractLsb 7 0 := by
  simp [loByte, dataField, BitVec.extractLsb]

/-- Settles O4: each row of the map, with the operands compared one by one. -/
theorem decodeFollowsOpcodeMap : Obligations.DecodeFollowsOpcodeMap := fun w =>
  ⟨(decode_eq_ok_iff_row w .init).trans (and_iff_left rfl),
    fun _ => decode_eq_ok_iff_operands (Instr.cfg.injEq ..),
    fun _ => decode_eq_ok_iff_operands (Instr.busaddr.injEq ..),
    fun _ => decode_eq_ok_iff_operands (Instr.shuntaddr.injEq ..),
    fun _ _ => decode_eq_ok_iff_operands (Instr.wrreg.injEq ..),
    fun _ => decode_eq_ok_iff_operands (Instr.rdreg.injEq ..),
    fun _ => decode_eq_ok_iff_operands (Instr.enc16.injEq ..),
    fun _ _ => hiByte_dataField w ▸ loByte_dataField w ▸ decode_eq_ok_iff_operands (Instr.dec16.injEq ..),
    fun _ => decode_eq_ok_iff_operands (Instr.busraw.injEq ..),
    fun _ => decode_eq_ok_iff_operands (Instr.shuntraw.injEq ..),
    fun _ => decode_eq_ok_iff_operands (Instr.scalebus.injEq ..),
    fun _ => decode_eq_ok_iff_operands (Instr.busv.injEq ..),
    fun _ => decode_eq_ok_iff_operands (Instr.curma.injEq ..)⟩

/-! ### The options vector -/

/-- CFG's word carries its options vector in the data field. -/
theorem commandWord_cfg (v : Word) : commandWord .cfg 0 0 v = 0x20000000#32 ||| v.setWidth 32 := by
  simp [commandWord, opCode]

/-- Every options vector is a CFG command's. -/
theorem decode_commandWord_cfg (v : Word) : decode (commandWord .cfg 0 0 v) = .ok (.cfg (optionsOfVector v)) := by
  rw [decode_eq_ok_iff_row]
  refine ⟨?_, by simp [rowOf, operandsOf]⟩
  exact (and_opMask_eq_opMatch_iff _ .cfg).mpr ⟨by simp, by simp [ReservedZero, reservedD_iff]⟩

/-- Settles O5: the decoder's reading of the vector is the table of R66. -/
theorem optionsVectorCarriesTheOptions : Obligations.OptionsVectorCarriesTheOptions := fun v =>
  ⟨optionsOfVector v, commandWord_cfg v ▸ decode_commandWord_cfg v, rfl, rfl, rfl, rfl, rfl, rfl, rfl, rfl⟩

/-- The vector of some options carries these options. -/
theorem optionsOfVector_vectorOfOptions (o : CfgOptions) : optionsOfVector (vectorOfOptions o) = o := by
  obtain ⟨reset, ch1, ch2, ch3, avg, busCt, shuntCt, mode⟩ := o
  simp only [optionsOfVector, CfgOptions.mk.injEq]
  refine ⟨by simp [vectorOfOptions], by simp [vectorOfOptions], by simp [vectorOfOptions], by simp [vectorOfOptions],
    ?_, ?_, ?_, ?_⟩
  all_goals
    ext i hi
    interval_cases i <;> simp [vectorOfOptions]

/-! ### Illegal words -/

/-- Of the step's checks only the decoder's is left where the host issues a word. -/
theorem step_of_decode_ok {s : State} {w : Command} {i : Instr} (hs : Issues s w) (h : decode w = .ok i) :
    step s = exec i s := by
  obtain ⟨hlaunch, hfault, hfetch⟩ := hs
  simp only [step, State.fetch, hlaunch, hfault, hfetch, h, if_true]

/-- An illegal word runs its error, whatever else the state holds. -/
theorem step_of_illegalWord {s : State} {w : Command} (hs : Issues s w) (h : IllegalWord w) :
    step s = .next (execIllegal s) := by
  obtain ⟨hlaunch, hfault, hfetch⟩ := hs
  cases hd : decode w with
  | ok i => exact absurd h ((not_illegalWord_iff w).mpr ⟨i, hd⟩)
  | error e => simp only [step, State.fetch, hlaunch, hfault, hfetch, hd, if_true]

/-- Settles O6: a word that the decoder refuses raises its error, and any other runs. -/
theorem illegalWordRaisesIllegalCommand : Obligations.IllegalWordRaisesIllegalCommand := by
  refine fun s w hs => ⟨step_of_illegalWord hs, fun hlegal => ?_⟩
  obtain ⟨i, hi⟩ := (not_illegalWord_iff w).mp hlegal
  exact ⟨i, hi, step_of_decode_ok hs hi⟩

end Sys2Proof.Proofs
end

section
/-! SUPPORT. The assembler: the words it writes as numbers, the keys of CFG and the pseudo-instructions
(30_encoding.md R67 to R69). -/

namespace Sys2Proof.Proofs

open Sys2Proof.Machine Sys2Proof.Statement

/-! ### Words as numbers -/

/-- A word is the number that its four fields make up (R61). -/
theorem command_toNat (w : Command) :
    w.toNat = (opField w).toNat * 2 ^ 28 + (chField w).toNat * 2 ^ 24 + (addrField w).toNat * 2 ^ 16 +
      (dataField w).toNat := by
  simp only [opField, chField, addrField, dataField, BitVec.extractLsb'_toNat, Nat.shiftRight_eq_div_pow]
  omega

theorem commandWord_toNat (op : Op) (ch : BitVec 4) (addr : RegAddr) (data : Word) :
    (commandWord op ch addr data).toNat =
      (opCode op).toNat * 2 ^ 28 + ch.toNat * 2 ^ 24 + addr.toNat * 2 ^ 16 + data.toNat := by
  simp only [command_toNat, opField_commandWord, chField_commandWord, addrField_commandWord, dataField_commandWord]

/-- A line that stands for a command assembles to the command's word. -/
theorem assemble_of_asmInstr_ok {line : AsmLine} {i : Instr} (h : asmInstr line = .ok i) :
    assemble line = .ok (encode i) := by
  simp only [assemble, h]

theorem assemble_of_asmInstr_error {line : AsmLine} {e : AsmError} (h : asmInstr line = .error e) :
    assemble line = .error e := by
  simp only [assemble, h]

/-! ### The keys of CFG -/

/-- What the options that a key sets add to the options vector (R66). -/
def keyPart (o : CfgOptions) : CfgKey → Nat
  | .rst _ => o.reset.toNat
  | .en _ => o.ch1.toNat * 2 ^ 1 + o.ch2.toNat * 2 ^ 2 + o.ch3.toNat * 2 ^ 3
  | .avg _ => o.avg.toNat * 2 ^ 4
  | .bct _ => o.busCt.toNat * 2 ^ 7
  | .sct _ => o.shuntCt.toNat * 2 ^ 10
  | .mode _ => o.mode.toNat * 2 ^ 13

/-- The options with a key's value in the place of what they had there; `setKey` where the key is legal. -/
def withKey (o : CfgOptions) : CfgKey → CfgOptions
  | .rst n => { o with reset := n == 1 }
  | .en cs => { o with ch1 := cs.contains 1, ch2 := cs.contains 2, ch3 := cs.contains 3 }
  | .avg n => { o with avg := BitVec.ofNat 3 n }
  | .bct n => { o with busCt := BitVec.ofNat 3 n }
  | .sct n => { o with shuntCt := BitVec.ofNat 3 n }
  | .mode n => { o with mode := BitVec.ofNat 3 n }

/-- An option's three bits hold the values below 8. -/
theorem asmBits3_eq (n : Nat) : asmBits3 n = if n < 8 then .ok (BitVec.ofNat 3 n) else .error .outOfRange := by
  by_cases h : n < 8 <;> simp [asmBits3, asmBelow, h]

/-- A key sets its options where it is legal, and is an error elsewhere (R68). -/
theorem setKey_eq_ok_iff (o o' : CfgOptions) (k : CfgKey) :
    setKey o k = .ok o' ↔ KeyLegal k ∧ withKey o k = o' := by
  cases k with
  | rst n => by_cases h : n < 2 <;> simp [setKey, asmBelow, h, KeyLegal, withKey]
  | en cs =>
    have hlegal : KeyLegal (.en cs) ↔ cs.Nodup ∧ cs.all validCh = true := by simp [KeyLegal, validCh_iff]
    rw [hlegal, setKey, withKey]
    cases cs.all validCh <;> by_cases hd : cs.Nodup <;> simp [hd]
  | avg n | bct n | sct n | mode n => by_cases h : n < 8 <;> simp [setKey, asmBits3_eq, h, KeyLegal, withKey]

/-- The keys are legal together: each at most once, and each in its range (R68). -/
def KeysLegal (ks : List CfgKey) : Prop :=
  ks.Pairwise (fun k k' => sameKey k k' = false) ∧ ∀ k ∈ ks, KeyLegal k

theorem keysLegal_cons (k : CfgKey) (ks : List CfgKey) :
    KeysLegal (k :: ks) ↔ (∀ k' ∈ ks, sameKey k k' = false) ∧ KeysLegal ks ∧ KeyLegal k := by
  simp only [KeysLegal, List.pairwise_cons, List.forall_mem_cons]
  tauto

/-- The options of legal keys, an omitted key's 0. -/
def optionsOfKeys (ks : List CfgKey) : CfgOptions := ks.foldr (fun k o => withKey o k) noOptions

/-- One more key is one that is not there yet, set in the options of the others. -/
theorem asmOptions_cons_eq_ok_iff (k : CfgKey) (ks : List CfgKey) (o : CfgOptions) :
    asmOptions (k :: ks) = .ok o ↔
      (∀ k' ∈ ks, sameKey k k' = false) ∧ ∃ o', asmOptions ks = .ok o' ∧ setKey o' k = .ok o := by
  have hany : (∀ k' ∈ ks, sameKey k k' = false) ↔ ks.any (sameKey k) = false := by simp
  rw [asmOptions, hany]
  cases ks.any (sameKey k) <;> cases asmOptions ks <;> simp

/-- A list of keys gives its options where it is legal, and is an error elsewhere (R68). -/
theorem asmOptions_eq_ok_iff (ks : List CfgKey) (o : CfgOptions) :
    asmOptions ks = .ok o ↔ KeysLegal ks ∧ optionsOfKeys ks = o := by
  induction ks generalizing o with
  | nil => simp [asmOptions, KeysLegal, optionsOfKeys]
  | cons k ks ih =>
    simp only [asmOptions_cons_eq_ok_iff, ih, setKey_eq_ok_iff, keysLegal_cons]
    constructor
    · rintro ⟨hfresh, _, ⟨hks, rfl⟩, hk, rfl⟩
      exact ⟨⟨hfresh, hks, hk⟩, rfl⟩
    · rintro ⟨⟨hfresh, hks, hk⟩, rfl⟩
      exact ⟨hfresh, _, ⟨hks, rfl⟩, hk, rfl⟩

/-! ### The sum of the keys' values -/

/-- The options vector adds up what its options stand for (R66, R68). -/
theorem vectorOfOptions_toNat (o : CfgOptions) :
    (vectorOfOptions o).toNat =
      o.reset.toNat + (o.ch1.toNat * 2 ^ 1 + o.ch2.toNat * 2 ^ 2 + o.ch3.toNat * 2 ^ 3) + o.avg.toNat * 2 ^ 4 +
        o.busCt.toNat * 2 ^ 7 + o.shuntCt.toNat * 2 ^ 10 + o.mode.toNat * 2 ^ 13 := by
  have hv := optionsOfVector_vectorOfOptions o
  generalize vectorOfOptions o = v at hv
  subst hv
  simp only [optionsOfVector, BitVec.getLsbD, Nat.toNat_testBit, BitVec.extractLsb'_toNat,
    Nat.shiftRight_eq_div_pow]
  omega

/-- The powers of two of distinct channels are the bits of the channels that are there. -/
theorem sum_two_pow_channels {cs : List Nat} (hd : cs.Nodup) (hv : ∀ c ∈ cs, Valid c) :
    (cs.map fun c => 2 ^ c).sum =
      (cs.contains 1).toNat * 2 ^ 1 + (cs.contains 2).toNat * 2 ^ 2 + (cs.contains 3).toNat * 2 ^ 3 := by
  have hcs : cs.toFinset = ({1, 2, 3} : Finset Nat).filter (· ∈ cs) := by
    ext c
    simpa [and_comm] using hv c
  rw [← List.sum_toFinset _ hd, hcs, Finset.sum_filter]
  simp [Bool.toNat, Bool.cond_decide, ite_mul, add_assoc]

/-- A legal key contributes its value. -/
theorem keyPart_withKey_self (o : CfgOptions) {k : CfgKey} (h : KeyLegal k) :
    keyPart (withKey o k) k = KeyValue k := by
  cases k with
  | rst n =>
    have hn : n < 2 := h
    interval_cases n <;> rfl
  | en cs =>
    obtain ⟨hd, hv⟩ := h
    exact (sum_two_pow_channels hd hv).symm
  | avg n | bct n | sct n | mode n => simp [keyPart, withKey, KeyValue, Nat.mod_eq_of_lt (show n < 8 from h)]

/-- A key leaves what other keys contribute as it is. -/
theorem keyPart_withKey_of_ne (o : CfgOptions) {k k' : CfgKey} (h : sameKey k k' = false) :
    keyPart (withKey o k') k = keyPart o k := by
  cases k <;> cases k' <;> simp [sameKey] at h <;> rfl

/-- In the place of 0, a key adds what it contributes to the vector. -/
theorem vectorOfOptions_withKey {o : CfgOptions} {k : CfgKey} (h : keyPart o k = 0) :
    (vectorOfOptions (withKey o k)).toNat = keyPart (withKey o k) k + (vectorOfOptions o).toNat := by
  rw [vectorOfOptions_toNat, vectorOfOptions_toNat]
  cases k <;> simp only [keyPart, withKey] at h ⊢ <;> omega

/-- An omitted key contributes 0 (R68). -/
theorem keyPart_optionsOfKeys_of_omitted {k : CfgKey} {ks : List CfgKey} (h : ∀ k' ∈ ks, sameKey k k' = false) :
    keyPart (optionsOfKeys ks) k = 0 := by
  induction ks with
  | nil => cases k <;> rfl
  | cons k' ks ih =>
    obtain ⟨hk', hks⟩ := List.forall_mem_cons.mp h
    exact (keyPart_withKey_of_ne _ hk').trans (ih hks)

/-- The vector of legal keys is the sum of their values (R68). -/
theorem vectorOfOptions_optionsOfKeys {ks : List CfgKey} (h : KeysLegal ks) :
    (vectorOfOptions (optionsOfKeys ks)).toNat = (ks.map KeyValue).sum := by
  induction ks with
  | nil => rfl
  | cons k ks ih =>
    obtain ⟨hfresh, hks, hk⟩ := (keysLegal_cons k ks).mp h
    calc (vectorOfOptions (optionsOfKeys (k :: ks))).toNat
        = keyPart (optionsOfKeys (k :: ks)) k + (vectorOfOptions (optionsOfKeys ks)).toNat :=
          vectorOfOptions_withKey (keyPart_optionsOfKeys_of_omitted hfresh)
      _ = KeyValue k + (ks.map KeyValue).sum := congrArg₂ _ (keyPart_withKey_self _ hk) (ih hks)
      _ = ((k :: ks).map KeyValue).sum := rfl

/-- Settles O57: legal keys give the options whose vector is the sum, and other keys give none. -/
theorem cfgKeysAddUpToTheVector : Obligations.CfgKeysAddUpToTheVector := by
  refine fun ks => ⟨fun h => ?legal, fun h => ?illegal⟩
  case legal =>
    have ho := (asmOptions_eq_ok_iff ks _).mpr ⟨h, rfl⟩
    refine ⟨_, assemble_of_asmInstr_ok (i := .cfg (optionsOfKeys ks)) (by simp [asmInstr, ho]), ?_⟩
    rw [encode, commandWord_toNat, vectorOfOptions_optionsOfKeys h]
    rfl
  case illegal =>
    cases ho : asmOptions ks with
    | ok o => exact absurd ((asmOptions_eq_ok_iff ks o).mp ho).1 h
    | error e => exact ⟨e, assemble_of_asmInstr_error (by simp [asmInstr, ho])⟩

/-! ### The pseudo-instructions -/

/-- A word is in the range of a 16-bit operand, and is itself the operand's value. -/
theorem asmWord_toNat (v : Word) : asmWord v.toNat = .ok v := by
  have hv := v.isLt
  rw [asmWord, if_pos (by omega)]
  simp [trunc16]

theorem asmInstr_wrreg {a : Nat} {v : Int} {w : Word} (ha : a < 256) (hv : asmWord v = .ok w) :
    asmInstr (.wrreg a v) = .ok (.wrreg (BitVec.ofNat 8 a) w) := by
  rw [asmInstr, hv, asmBelow, if_pos ha]
  rfl

/-- A write of a word at CONFIG, as the pseudo-instructions expand to it. -/
theorem assemble_wrreg_config (v : Word) : assemble (.wrreg 0x00 v.toNat) = .ok (encode (.wrreg configAddr v)) :=
  assemble_of_asmInstr_ok (asmInstr_wrreg (by decide) (asmWord_toNat v))

/-- Settles O58: each pseudo-instruction and its expansion stand for the same command. -/
theorem pseudoInstructionsExpand : Obligations.PseudoInstructionsExpand := by
  refine ⟨rfl, rfl, fun ks o ho => ?wrcfg, fun ks e he => ?wrcfgError, rfl, ?resetdev, rfl⟩
  case wrcfg =>
    rw [assemble_wrreg_config]
    exact assemble_of_asmInstr_ok (by simp [asmInstr, ho])
  case wrcfgError => exact assemble_of_asmInstr_error (by simp [asmInstr, he])
  case resetdev => exact (assemble_wrreg_config 0x8000).symm

end Sys2Proof.Proofs
end

section
/-! SUPPORT. CFG and INIT (40_config_word.md), and the step of any row's words, which the statements about single
commands begin with. -/

namespace Sys2Proof.Proofs

open Sys2Proof.Machine Sys2Proof.Config Sys2Proof.Statement

/-! ### The words of a row -/

/-- The words with a row's operation code run the row's command on their operands where the row's reserved fields are
zero, and raise ILLEGAL_COMMAND elsewhere (30_encoding.md R62 to R64). -/
theorem commandWords_row (op : Op) :
    CommandWords (opCode op).toNat (fun w => ReservedZero w op) (operandsOf op) := by
  intro s w hs hcode
  have hop : opField w = opCode op := BitVec.eq_of_toNat_eq hcode
  refine ⟨fun hz => ?_, fun hz => ?_⟩
  · exact step_of_decode_ok hs ((decode_eq_ok_iff w _).mpr ⟨op, hop, hz, rfl⟩)
  · exact step_of_illegalWord hs ((illegalWord_iff_of_opField hop).mpr hz)

/-! ### CFG -/

/-- Each option stands in its field of the word that `configure` builds (10_state.md R31). -/
theorem configure_fields (o : CfgOptions) :
    (configure o).getLsbD 15 = o.reset ∧ (configure o).getLsbD 14 = o.ch1 ∧ (configure o).getLsbD 13 = o.ch2 ∧
    (configure o).getLsbD 12 = o.ch3 ∧ (configure o).extractLsb 11 9 = o.avg ∧
    (configure o).extractLsb 8 6 = o.busCt ∧ (configure o).extractLsb 5 3 = o.shuntCt ∧
    (configure o).extractLsb 2 0 = o.mode := by
  refine ⟨by simp [configure, flagBit], by simp [configure, flagBit], by simp [configure, flagBit],
    by simp [configure, flagBit], ?avg, ?busCt, ?shuntCt, ?mode⟩
  all_goals
    ext i hi
    interval_cases i <;> simp [configure, flagBit]

/-- Settles O16: the fields of `configure`, for any options and so for those of any options vector. -/
theorem cfgBuildsTheConfigWord : Obligations.CfgBuildsTheConfigWord :=
  ⟨commandWords_row .cfg, fun o _ => ⟨configure o, rfl, configure_fields o⟩,
    fun v _ => ⟨configure (optionsOfVector v), rfl, configure_fields (optionsOfVector v)⟩⟩

/-! ### INIT -/

/-- With a handle and an answer, a register write makes its call, and then raises TransportError or goes on. -/
theorem writeRegister_of_answer {s : State} {a : RegAddr} {v : Word} {r : Ack} (hopen : s.handleOpen = true) :
    WriteAnswer s a (wireBytes v) = r → s.writeRegister a v =
      match r with
      | .fail => .ended ((Wrote s a v .fail).raise .transportError .writeFailed)
      | .ok => .value () (Wrote s a v .ok) := by
  rintro rfl
  rcases State.writeRegister_cases s a v with ⟨hclosed, -⟩ | ⟨-, r, rfl, hw⟩
  · simp [hopen] at hclosed
  · exact hw

theorem initState_of_open {s : State} (hopen : s.handleOpen = true) : initState s = s.takeFault .reinit := by
  simp [initState, hopen]

theorem initState_of_openFailed {s : State} (hopen : s.handleOpen = false) (ho : OpenAnswer s = .fail) :
    initState s = (AfterOpen s .fail).raise .openError .openFailed := by
  have hcall : s.openBus = (.fail, AfterOpen s .fail) := ho ▸ State.openBus_eq s
  simp [initState, hopen, hcall]

/-- Once its `open` has succeeded, INIT writes DEFAULT_CONFIG at CONFIG. -/
theorem initState_of_opened {s : State} (hopen : s.handleOpen = false) (ho : OpenAnswer s = .ok) :
    initState s = flowEnd ((Opened s).writeRegister configAddr defaultConfig) fun _ t => t.returnValue .unit := by
  have hcall : s.openBus = (.ok, AfterOpen s .ok) := ho ▸ State.openBus_eq s
  simp [initState, hopen, hcall, Opened]

/-- Settles O18: each case of INIT, the last two by the answer to its write. -/
theorem initOpensAndConfigures : Obligations.InitOpensAndConfigures := by
  refine ⟨commandWords_row .init, fun s hopen => ?reinit, fun s hopen ho => ?openFailed, ?writeFailed, ?written⟩
  case reinit => exact congrArg _ (initState_of_open hopen)
  case openFailed => exact congrArg _ (initState_of_openFailed hopen ho)
  all_goals
    rintro s _ hopen ho rfl hr
    have hwrite := writeRegister_of_answer (v := defaultConfig) (Opened_handleOpen s) hr
    exact congrArg _ ((initState_of_opened hopen ho).trans (hwrite ▸ rfl))

end Sys2Proof.Proofs
end

section
/-! SUPPORT. The channel check, which the six channel commands share, and BUSADDR and SHUNTADDR (41_address.md). -/

namespace Sys2Proof.Proofs

open Sys2Proof.Machine Sys2Proof.Statement

/-! ### The channel check -/

/-- On a valid channel the check passes to the command's own work. -/
theorem onChannel_of_valid (s : State) {c : Nat} (k : State) (h : Valid c) : s.onChannel c k = k :=
  State.onChannel_valid s k ((validCh_iff c).mpr h)

/-- On any other channel the check raises BAD_CHANNEL, and nothing is left of the command's own work. -/
theorem onChannel_of_not_valid (s : State) {c : Nat} (k : State) (h : ¬ Valid c) :
    s.onChannel c k = Raised s 4 (.badChannel c) :=
  State.onChannel_invalid s k (Bool.eq_false_iff.mpr (mt (validCh_iff c).mp h))

/-- Every command that takes a channel checks it first (R90). -/
theorem exec_of_not_valid {i : Instr} {c : Nat} (hi : channelOperand i = some c) (s : State) (h : ¬ Valid c) :
    exec i s = .next (Raised s 4 (.badChannel c)) := by
  cases i <;> cases hi
  case busaddr | shuntaddr | busraw | shuntraw | busv | curma => exact congrArg _ (onChannel_of_not_valid s _ h)

/-- Settles O19: all six take a channel. -/
theorem invalidChannelRaisesBadChannel : Obligations.InvalidChannelRaisesBadChannel :=
  ⟨validCh_iff, fun s _ h =>
    ⟨exec_of_not_valid rfl s h, exec_of_not_valid rfl s h, exec_of_not_valid rfl s h, exec_of_not_valid rfl s h,
      exec_of_not_valid rfl s h, exec_of_not_valid rfl s h⟩⟩

/-! ### BUSADDR and SHUNTADDR -/

theorem exec_busaddr_of_valid (s : State) {c : Nat} (h : Valid c) :
    exec (.busaddr c) s = .next (Returned s (.a8 (BusRegister c))) := by
  rw [← busAddr_eq h]
  exact congrArg _ (onChannel_of_valid s _ h)

theorem exec_shuntaddr_of_valid (s : State) {c : Nat} (h : Valid c) :
    exec (.shuntaddr c) s = .next (Returned s (.a8 (ShuntRegister s.params.shuntBank c))) := by
  rw [← shuntAddr_eq _ h]
  exact congrArg _ (onChannel_of_valid s _ h)

/-- Settles O20: the row's words, the channel check and the addresses of R91. -/
theorem busaddrReturnsTheBusRegister : Obligations.BusaddrReturnsTheBusRegister :=
  ⟨commandWords_row .busaddr, fun s _ => exec_busaddr_of_valid s, fun s _ => exec_of_not_valid rfl s, rfl, rfl, rfl⟩

/-- Settles O21: as BUSADDR, with the addresses of R92 under each bank. -/
theorem shuntaddrFollowsTheBank : Obligations.ShuntaddrFollowsTheBank :=
  ⟨commandWords_row .shuntaddr, fun s _ => exec_shuntaddr_of_valid s, fun s _ => exec_of_not_valid rfl s,
    rfl, rfl, rfl, rfl, rfl, rfl⟩

end Sys2Proof.Proofs
end


section
/-! SUPPORT. WRREG, RDREG, ENC16 and DEC16 (42_register_io.md): the two register procedures and the byte codec in the
statements' terms. -/

namespace Sys2Proof.Proofs

open Sys2Proof.Machine Sys2Proof.Config Sys2Proof.Statement

/-! ### The byte codec (R100, R101) -/

/-- `sext_16` reads its word in two's complement, bit 15 being the sign (00_scope.md R9). -/
theorem sext16_eq_toInt (v : Word) : sext16 v = v.toInt := by
  rw [sext16, BitVec.toInt_eq_msb_cond, BitVec.msb_eq_getLsbD_last]
  rfl

/-- The number of a byte pair, the high byte first. -/
theorem toNat_append_bytes (b0 b1 : Byte) : (b0 ++ b1).toNat = b0.toNat * 256 + b1.toNat := by
  rw [BitVec.toNat_append, ← Nat.shiftLeft_add_eq_or_of_lt b1.isLt, Nat.shiftLeft_eq]

/-- The statements' reading of two bytes is the two's-complement value of the pair (20_memory.md R44). -/
theorem signedBigEndian_pair (b0 b1 : Byte) : SignedBigEndian [b0, b1] = (b0 ++ b1).toInt := by
  rw [BitVec.toInt_eq_toNat_cond, toNat_append_bytes]
  simp only [SignedBigEndian, List.foldl_cons, List.foldl_nil]
  omega

/-- The read decoder is the statements' signed big-endian reading. -/
theorem dec16_eq_signedBigEndian (b0 b1 : Byte) : dec16 b0 b1 = SignedBigEndian [b0, b1] := by
  rw [dec16, sext16_eq_toInt, signedBigEndian_pair]

/-- Settles O26: the row's words, and the encoder's two bytes, which are the statement's by definition. -/
theorem encReturnsTheBytePair : Obligations.EncReturnsTheBytePair :=
  ⟨commandWords_row .enc16, fun _ _ => rfl⟩

/-- DEC16's operands are the two bytes of the data field (30_encoding.md R65). -/
theorem operandsOf_dec16 : operandsOf .dec16 = fun w => .dec16 (w.extractLsb 15 8) (w.extractLsb 7 0) := by
  funext w
  rw [operandsOf, hiByte_dataField, loByte_dataField]

/-- Settles O27: the row's words, and the decoder as the signed big-endian reading. -/
theorem decReturnsTheSignedValue : Obligations.DecReturnsTheSignedValue := by
  refine ⟨operandsOf_dec16 ▸ commandWords_row .dec16, fun b0 b1 s => ?_⟩
  rw [← dec16_eq_signedBigEndian]
  rfl

/-! ### Reading a register (R103) -/

/-- A command that makes one register read is the statements' `ReadCommand`, whatever it makes of the sample. -/
theorem readAndReturn_eq_readCommand (s : State) (a : RegAddr) (result : Int → Out) :
    s.readAndReturn a result = ReadCommand s a result := by
  rcases State.readAndReturn_cases s a result with
    ⟨hopen, e⟩ | ⟨hopen, hcfg, e⟩ | ⟨hopen, hcfg, hr, e⟩ | ⟨hopen, hcfg, r, t, hr, rfl, hends⟩
  · simp only [e, ReadCommand, hopen, if_true]
    rfl
  · simp only [e, ReadCommand, hopen, hcfg, if_true, reduceCtorEq, if_false]
    rfl
  · replace hr : ReadAnswerTo s a = none := hr
    simp only [e, ReadCommand, hopen, hcfg, hr, reduceCtorEq, if_false]
    rfl
  · replace hr : ReadAnswerTo s a = some r := hr
    rcases hends with ⟨rfl, e⟩ | ⟨b0, b1, rfl, e⟩ | ⟨bs, rfl, hlt, e⟩ | ⟨bs, rfl, hgt, e⟩ <;>
      simp only [e, ReadCommand, hopen, hcfg, hr, reduceCtorEq, if_false]
    · rfl
    · rw [dec16_eq_signedBigEndian]
      rfl
    · rw [if_neg hlt.ne, if_pos hlt]
      rfl
    · rw [if_neg hgt.ne', if_neg hgt.not_gt]
      rfl

/-- Settles O23: the row's words, and RDREG as a read whose sample is the result. -/
theorem rdregFollowsReadRegister : Obligations.RdregFollowsReadRegister :=
  ⟨commandWords_row .rdreg, fun s a => congrArg _ (readAndReturn_eq_readCommand s a .i)⟩

/-! ### Writing a register (R102) -/

/-- What a write's answer leaves of cfg_state, in the statements' terms; it changes nothing else (10_state.md R25). -/
theorem noteWrite_eq (s : State) (a : RegAddr) (v : Word) (r : Ack) :
    s.noteWrite a v r = { s with cfgState := CfgAfterWrite s.cfgState a v r } := by
  by_cases ha : a = configAddr
  · subst ha
    cases r with
    | fail => rfl
    | ok =>
      cases hrst : v.getLsbD 15 <;>
        simp only [State.noteWrite, CfgAfterWrite, configAddr, configRst, hrst, if_true, if_false, and_self,
          and_false, reduceCtorEq]
  · have hkeep : CfgAfterWrite s.cfgState a v r = s.cfgState := if_neg ha
    rw [State.noteWrite_of_ne s v r ha, hkeep]

/-- The state after an answered register write, in the statements' terms. -/
theorem wrote_eq (s : State) (a : RegAddr) (v : Word) (r : Ack) :
    Wrote s a v r = { AfterWrite s a (wireBytes v) r with cfgState := CfgAfterWrite s.cfgState a v r } :=
  noteWrite_eq ..

/-- WRREG runs `writeRegister` and, where that goes on, returns UNIT (R104). -/
theorem exec_wrreg (a : RegAddr) (v : Word) (s : State) :
    exec (.wrreg a v) s = .next (flowEnd (s.writeRegister a v) fun _ t => t.returnValue .unit) := rfl

/-- Settles O22: the row's words, and each case of `writeRegister`. -/
theorem wrregWritesBigEndian : Obligations.WrregWritesBigEndian := by
  refine ⟨commandWords_row .wrreg, fun s a v hclosed => ?noHandle, ?writeFailed, ?written⟩
  case noHandle =>
    rw [exec_wrreg, State.writeRegister, hclosed]
    rfl
  all_goals
    rintro s a v _ hopen rfl hr
    rw [← wireBytes_eq] at hr ⊢
    rw [exec_wrreg, writeRegister_of_answer hopen hr, ← wrote_eq]
    rfl

end Sys2Proof.Proofs
end

section
/-! SUPPORT. BUSRAW, SHUNTRAW, SCALEBUS, BUSV and CURMA (43_scaler.md): the bus scaler in the statements' terms, and the
one register read of a channel that the four measuring commands share. -/

namespace Sys2Proof.Proofs

open Sys2Proof.Machine Sys2Proof.Statement

/-! ### The bus scaler (R120) -/

/-- The arithmetic shift right by the three status bits is the floor of the quotient by 8 (00_scope.md R9). -/
theorem asr_busStatusBits (v : Int) : asr v busStatusBits = v / 8 :=
  Int.fdiv_eq_ediv_of_nonneg v (by decide)

/-- Every sample scales to 4 mV for each whole step of 8. -/
theorem busScale_eq (v : Int) : busScale v = 4 * (v / 8) := by
  rw [busScale, asr_busStatusBits, busLsbMv, mul_comm]

/-- Settles O32: the row's words, and the bus scaler of the operand read in two's complement. -/
theorem scalebusScalesItsOperand : Obligations.ScalebusScalesItsOperand := by
  refine ⟨commandWords_row .scalebus, fun raw s => ?_⟩
  rw [← busScale_eq, ← sext16_eq_toInt]
  rfl

/-! ### One read of a channel's register (R122, R123, R126, R128) -/

/-- On a valid channel the measuring commands of the bus make their one read at the channel's bus register. -/
theorem onChannel_readAndReturn_busAddr (s : State) {c : Nat} (result : Int → Out) (h : Valid c) :
    s.onChannel c (s.readAndReturn (busAddr c) result) = ReadCommand s (BusRegister c) result := by
  rw [onChannel_of_valid s _ h, readAndReturn_eq_readCommand, busAddr_eq h]

/-- On a valid channel the measuring commands of the shunt make their one read at the register that SHUNT_BANK
selects. -/
theorem onChannel_readAndReturn_shuntAddr (s : State) {c : Nat} (result : Int → Out) (h : Valid c) :
    s.onChannel c (s.readAndReturn (shuntAddr s.params.shuntBank c) result) =
      ReadCommand s (ShuntRegister s.params.shuntBank c) result := by
  rw [onChannel_of_valid s _ h, readAndReturn_eq_readCommand, shuntAddr_eq _ h]

/-- Settles O30: the row's words, one read of the bus register whose sample is scaled, and the channel check. -/
theorem busrawScalesTheBusSample : Obligations.BusrawScalesTheBusSample := by
  refine ⟨commandWords_row .busraw, fun s c h => ?_, fun s _ => exec_of_not_valid rfl s⟩
  simp only [← busScale_eq]
  exact congrArg _ (onChannel_readAndReturn_busAddr s _ h)

/-- Settles O31: the row's words, one read of the selected register whose sample is kept, and the channel check. -/
theorem shuntrawReturnsTheShuntSample : Obligations.ShuntrawReturnsTheShuntSample :=
  ⟨commandWords_row .shuntraw, fun s _ h => congrArg _ (onChannel_readAndReturn_shuntAddr s _ h),
    fun s _ => exec_of_not_valid rfl s⟩

/-- Settles O33: as BUSRAW, with the scaled sample times the constant of R125. -/
theorem busvMultipliesByTheConstant : Obligations.BusvMultipliesByTheConstant := by
  refine ⟨commandWords_row .busv, fun s c h => ?_, fun s _ => exec_of_not_valid rfl s⟩
  simp only [← busScale_eq]
  exact congrArg _ (onChannel_readAndReturn_busAddr s _ h)

/-- Settles O34: as SHUNTRAW, with the sample divided by SHUNT_R as in R127. -/
theorem curmaDividesByTheShunt : Obligations.CurmaDividesByTheShunt :=
  ⟨commandWords_row .curma, fun s _ h => congrArg _ (onChannel_readAndReturn_shuntAddr s _ h),
    fun s _ => exec_of_not_valid rfl s⟩

end Sys2Proof.Proofs
end

section
/-! SUPPORT. Errors and faults (60_exceptions.md): the reading commands as one command of the statements', what such a
command does where it faults or its read has a wrong byte count, and the cause of every fault. -/

namespace Sys2Proof.Proofs

open Sys2Proof.Machine Sys2Proof.Config Sys2Proof.Statement

/-! ### The reading commands (42_register_io.md R103) -/

/-- The five reading commands differ in what they make of the sample alone. -/
theorem exec_of_readsAt {s : State} {i : Instr} {a : RegAddr} (hi : ReadsAt s i a) :
    ∃ result, exec i s = .next (ReadCommand s a result) := by
  cases hi with
  | rdreg a => exact ⟨_, congrArg _ (readAndReturn_eq_readCommand s a _)⟩
  | busraw hc | busv hc => exact ⟨_, congrArg _ (onChannel_readAndReturn_busAddr s _ hc)⟩
  | shuntraw hc | curma hc => exact ⟨_, congrArg _ (onChannel_readAndReturn_shuntAddr s _ hc)⟩

section ReadCommand

variable {s : State} {a : RegAddr} (result : Int → Out)

theorem readCommand_of_closed (hclosed : s.handleOpen = false) : ReadCommand s a result = s.takeFault .noHandle :=
  if_pos hclosed

theorem readCommand_of_unconfigured (hopen : s.handleOpen = true) (hcfg : s.cfgState = .unconfigured) :
    ReadCommand s a result = s.takeFault .unconfigured := by
  rw [ReadCommand, if_neg (by simp [hopen]), if_pos hcfg]
  rfl

theorem readCommand_of_unwritten (hopen : s.handleOpen = true) (hcfg : s.cfgState = .configured)
    (hr : ReadAnswerTo s a = none) : ReadCommand s a result = s.takeFault .mockUnwritten := by
  rw [← readAndReturn_eq_readCommand, readAndReturn_unwritten result hopen hcfg hr]

/-- The bytes of a short or long read are dropped; only their number is recorded (60_exceptions.md R143). -/
theorem readCommand_of_wrongCount {bs : List Byte} (hopen : s.handleOpen = true) (hcfg : s.cfgState = .configured)
    (hr : ReadAnswerTo s a = some (.bytes bs)) (hlen : bs.length ≠ 2) :
    ReadCommand s a result = Raised (AfterRead s a (.bytes bs)) 3
      (if bs.length < 2 then .shortRead bs.length else .longRead bs.length) := by
  simp only [ReadCommand, hopen, hcfg, hr, hlen, reduceCtorEq, if_false]
  by_cases hlt : bs.length < 2
  · rw [if_pos hlt, if_pos hlt]
  · rw [if_neg hlt, if_neg hlt]

end ReadCommand

/-- Settles O25: whatever the reading command would have made of a sample. -/
theorem wrongByteCountRaisesProtocolError : Obligations.WrongByteCountRaisesProtocolError := by
  intro s i a bs hi hopen hcfg hr hlen
  obtain ⟨result, hexec⟩ := exec_of_readsAt hi
  rw [hexec, readCommand_of_wrongCount result hopen hcfg hr hlen]

/-! ### The causes of the faults (60_exceptions.md R145) -/

/-- A command that has cause for a fault takes that fault and changes nothing else. -/
theorem FaultCause.exec_eq {s : State} {i : Instr} {f : Fault} (h : FaultCause s i f) :
    exec i s = .next (s.takeFault f) := by
  cases h with
  | writeNoHandle a v hclosed => rw [exec_wrreg, State.writeRegister, hclosed]; rfl
  | readNoHandle hi hclosed =>
    obtain ⟨result, hexec⟩ := exec_of_readsAt hi
    rw [hexec, readCommand_of_closed result hclosed]
  | readUnconfigured hi hopen hcfg =>
    obtain ⟨result, hexec⟩ := exec_of_readsAt hi
    rw [hexec, readCommand_of_unconfigured result hopen hcfg]
  | readUnwritten hi hopen hcfg hr =>
    obtain ⟨result, hexec⟩ := exec_of_readsAt hi
    rw [hexec, readCommand_of_unwritten result hopen hcfg hr]
  | reinit hopen => exact congrArg _ (initState_of_open hopen)

/-- From a state without a fault, a command leaves FAULT at exactly the fault it has cause for. -/
theorem fault_eq_some_iff {s t : State} {i : Instr} {f : Fault} (hfault : s.fault = none) (h : exec i s = .next t) :
    t.fault = some f ↔ FaultCause s i f := by
  constructor
  · intro hf
    cases exec_effect h with
    | faults hcause ht => subst ht; cases hf; exact hcause
    | ends hc he =>
      have hnone : t.fault = none := (he.fault_eq.trans hc.fault_eq).trans hfault
      simp [hnone] at hf
  · intro hcause
    cases h.symm.trans hcause.exec_eq
    rfl

/-- Only the mock leaves a read without an answer, and only where its map holds no value (20_memory.md R51). -/
theorem readAnswerTo_eq_none_iff (s : State) (a : RegAddr) :
    ReadAnswerTo s a = none ↔ ∃ m, s.transport = .mock m ∧ m.regs.read a.toNat = none := by
  cases ht : s.transport with
  | oracle draws => simp [ReadAnswerTo, ht, transportReadAnswer_oracle]
  | mock m => simp [readAnswerTo_mock a ht, mockReadAnswer_eq_none]

section FaultCause

variable (s : State) (i : Instr)

theorem faultCause_noHandle_iff :
    FaultCause s i .noHandle ↔ s.handleOpen = false ∧ ((∃ a v, i = .wrreg a v) ∨ ∃ a, ReadsAt s i a) := by
  constructor
  · intro h
    cases h with
    | writeNoHandle a v hclosed => exact ⟨hclosed, .inl ⟨a, v, rfl⟩⟩
    | readNoHandle hi hclosed => exact ⟨hclosed, .inr ⟨_, hi⟩⟩
  · rintro ⟨hclosed, ⟨a, v, rfl⟩ | ⟨a, hi⟩⟩
    · exact .writeNoHandle a v hclosed
    · exact .readNoHandle hi hclosed

theorem faultCause_unconfigured_iff :
    FaultCause s i .unconfigured ↔ s.handleOpen = true ∧ s.cfgState = .unconfigured ∧ ∃ a, ReadsAt s i a := by
  constructor
  · intro h
    cases h with
    | readUnconfigured hi hopen hcfg => exact ⟨hopen, hcfg, _, hi⟩
  · rintro ⟨hopen, hcfg, a, hi⟩
    exact .readUnconfigured hi hopen hcfg

theorem faultCause_reinit_iff : FaultCause s i .reinit ↔ s.handleOpen = true ∧ i = .init := by
  constructor
  · intro h
    cases h with
    | reinit hopen => exact ⟨hopen, rfl⟩
  · rintro ⟨hopen, rfl⟩
    exact .reinit hopen

theorem faultCause_mockUnwritten_iff :
    FaultCause s i .mockUnwritten ↔ s.handleOpen = true ∧ s.cfgState = .configured ∧
      ∃ a m, ReadsAt s i a ∧ s.transport = .mock m ∧ m.regs.read a.toNat = none := by
  constructor
  · intro h
    cases h with
    | readUnwritten hi hopen hcfg hr =>
      obtain ⟨m, hm, hread⟩ := (readAnswerTo_eq_none_iff s _).mp hr
      exact ⟨hopen, hcfg, _, m, hi, hm, hread⟩
  · rintro ⟨hopen, hcfg, a, m, hi, hm, hread⟩
    exact .readUnwritten hi hopen hcfg ((readAnswerTo_eq_none_iff s a).mpr ⟨m, hm, hread⟩)

end FaultCause

/-- Settles O42: FAULT is left at exactly the fault the command has cause for, and each fault has the causes of its
row. -/
theorem faultsAreRaisedExactlyWhenStated : Obligations.FaultsAreRaisedExactlyWhenStated := fun i s _ hfault h =>
  ⟨(fault_eq_some_iff hfault h).trans (faultCause_noHandle_iff s i),
    (fault_eq_some_iff hfault h).trans (faultCause_unconfigured_iff s i),
    (fault_eq_some_iff hfault h).trans (faultCause_reinit_iff s i),
    (fault_eq_some_iff hfault h).trans (faultCause_mockUnwritten_iff s i)⟩

end Sys2Proof.Proofs
end

section
/-! SUPPORT. The launch (70_reset_and_hazards.md R161): the numbers that the patterns of binary64 stand for, in the
order of the patterns, and the step that refuses a launch out of range. -/

namespace Sys2Proof.Proofs

open Sys2Proof.Machine Sys2Proof.Config Sys2Proof.Safety

/-! ### The numbers of the patterns (00_scope.md R10) -/

theorem f64Frac_lt (p : F64) : f64Frac p < 2 ^ 52 := (p.extractLsb' 0 52).isLt

/-- Without a sign bit, a pattern is its biased exponent and its fraction. -/
theorem f64_toNat_of_not_neg {p : F64} (h : f64Neg p = false) : p.toNat = f64Expo p * 2 ^ 52 + f64Frac p := by
  have hlt : 2 * p.toNat < 2 ^ 64 := BitVec.msb_eq_false_iff_two_mul_lt.mp ((BitVec.msb_eq_getLsbD_last p).trans h)
  simp only [f64Expo, f64Frac, BitVec.extractLsb'_toNat, Nat.shiftRight_eq_div_pow]
  omega

theorem f64Value_of_not_neg {p : F64} (h : f64Neg p = false) : f64Value p = f64Mant p * 2 ^ f64Scale p := by
  simp [f64Value, h]

/-- A sign bit leaves no positive number. -/
theorem f64Value_nonpos_of_neg {p : F64} (h : f64Neg p = true) : f64Value p ≤ 0 := by
  have habs : 0 ≤ (f64Mant p : ℚ) * 2 ^ f64Scale p := by positivity
  simp only [f64Value, h, if_true]
  linarith

/-- A number without a sign bit reaches the power of two that a biased exponent `e` stands for exactly where its own
biased exponent is at least `e`: there its significand has the leading bit, and below `e` it is too short to make up for
the exponent. -/
theorem two_zpow_le_f64Value_iff {p : F64} {e : Nat} (hneg : f64Neg p = false) (he : 1 < e) :
    (2 : ℚ) ^ ((e : ℤ) - 1023) ≤ f64Value p ↔ e ≤ f64Expo p := by
  have hfrac := f64Frac_lt p
  rw [f64Value_of_not_neg hneg]
  constructor
  · contrapose!
    intro hlt
    have hmant : f64Mant p < 2 ^ 53 := by unfold f64Mant; split <;> omega
    have hscale : f64Scale p ≤ (e : ℤ) - 1076 := by unfold f64Scale; split <;> omega
    calc (f64Mant p : ℚ) * 2 ^ f64Scale p
        < 2 ^ 53 * 2 ^ f64Scale p := by gcongr; exact_mod_cast hmant
      _ ≤ 2 ^ 53 * 2 ^ ((e : ℤ) - 1076) := by gcongr; norm_num
      _ = 2 ^ ((e : ℤ) - 1023) := by rw [← zpow_natCast, ← zpow_add₀ two_ne_zero]; congr 1; omega
  · intro hle
    have hmant : 2 ^ 52 ≤ f64Mant p := by unfold f64Mant; split <;> omega
    have hscale : (e : ℤ) - 1075 ≤ f64Scale p := by unfold f64Scale; split <;> omega
    calc (2 : ℚ) ^ ((e : ℤ) - 1023)
        = 2 ^ 52 * 2 ^ ((e : ℤ) - 1075) := by rw [← zpow_natCast, ← zpow_add₀ two_ne_zero]; congr 1; omega
      _ ≤ 2 ^ 52 * 2 ^ f64Scale p := by gcongr; norm_num
      _ ≤ f64Mant p * 2 ^ f64Scale p := by gcongr; exact_mod_cast hmant

/-! ### The launch constraints (R161) -/

/-- 2^-1000 has the biased exponent 23 and no fraction. -/
theorem shuntRMin_toNat : shuntRMin.toNat = 23 * 2 ^ 52 := rfl

/-- The model's order of patterns is R161's order of numbers. -/
theorem shuntROk_iff (r : F64) :
    shuntROk r = true ↔ f64IsFinite r = true ∧ 1 / 2 ^ 1000 ≤ f64Value r := by
  have hmin : (1 / 2 ^ 1000 : ℚ) = 2 ^ (((23 : ℕ) : ℤ) - 1023) := by
    rw [show ((23 : ℕ) : ℤ) - 1023 = -(1000 : ℕ) by rfl, zpow_neg, zpow_natCast, one_div]
  simp only [shuntROk, Bool.and_eq_true, and_assoc]
  refine and_congr_right fun _ => ?_
  cases hneg : f64Neg r with
  | true =>
    have hpos : (0 : ℚ) < 1 / 2 ^ 1000 := by positivity
    exact iff_of_false (by simp) ((f64Value_nonpos_of_neg hneg).trans_lt hpos).not_ge
  | false =>
    have hfrac := f64Frac_lt r
    rw [hmin, two_zpow_le_f64Value_iff hneg (by decide), shuntRMin_toNat, f64_toNat_of_not_neg hneg]
    simp only [Bool.not_false, true_and, decide_eq_true_eq]
    omega

theorem launchOk_iff (p : Params) :
    launchOk p = true ↔
      p.deviceAddr ≤ 0x7F ∧ f64IsFinite p.shuntR = true ∧ 1 / 2 ^ 1000 ≤ f64Value p.shuntR := by
  rw [launchOk, Bool.and_eq_true, shuntROk_iff, deviceAddrOk, decide_eq_true_eq]

/-! ### The refused step -/

/-- Every command has a meaning: it answers a next state. -/
theorem exists_exec_eq_next (i : Instr) (s : State) : ∃ t, exec i s = .next t := by
  cases i <;> exact ⟨_, rfl⟩

/-- No check after the launch's is answered with its refusal. -/
theorem step_eq_launchRefused_iff (s : State) : step s = .refused .launchRefused ↔ ¬ launchOk s.params = true := by
  refine ⟨fun h hlaunch => ?_, fun hlaunch => if_neg hlaunch⟩
  simp only [step, hlaunch, if_true] at h
  split at h
  case h_1 => cases h
  case h_2 =>
    split at h
    case h_1 => cases h
    case h_2 =>
      split at h
      case h_1 i _ =>
        obtain ⟨t, ht⟩ := exists_exec_eq_next i s
        cases ht.symm.trans h
      case h_2 => cases h

/-- Settles O8: a step is refused by the launch's check alone, and that check is R161's condition. -/
theorem launchOutOfRangeIsRefused : Obligations.LaunchOutOfRangeIsRefused :=
  ⟨fun s => (step_eq_launchRefused_iff s).trans (not_congr (launchOk_iff s.params)), rfl, rfl, rfl⟩

end Sys2Proof.Proofs
end

section
/-! SUPPORT. The decoder and the encoder undo each other (30_encoding.md R61 to R70), and so the assembler's words mean
the commands of their lines (R67). -/

namespace Sys2Proof.Proofs

open Sys2Proof.Machine Sys2Proof.Statement

/-! ### The operands of an encoded command -/

/-- A command's word is one of its row's. -/
theorem encode_and_opMask (i : Instr) : encode i &&& opMask (rowOf i) = opMatch (rowOf i) := by
  cases i with
  | init => exact Laws.EncodingRow.init
  | cfg o => exact Laws.EncodingRow.cfg o
  | busaddr ch => exact Laws.EncodingRow.busaddr ch
  | shuntaddr ch => exact Laws.EncodingRow.shuntaddr ch
  | wrreg addr data => exact Laws.EncodingRow.wrreg addr data
  | rdreg addr => exact Laws.EncodingRow.rdreg addr
  | enc16 data => exact Laws.EncodingRow.enc16 data
  | dec16 b0 b1 => exact Laws.EncodingRow.dec16 b0 b1
  | busraw ch => exact Laws.EncodingRow.busraw ch
  | shuntraw ch => exact Laws.EncodingRow.shuntraw ch
  | scalebus raw => exact Laws.EncodingRow.scalebus raw
  | busv ch => exact Laws.EncodingRow.busv ch
  | curma ch => exact Laws.EncodingRow.curma ch

/-- A channel that fits the field `ch` is the field's value. -/
theorem chBits_toNat {ch : Nat} (h : chFits ch = true) : (chBits ch).toNat = ch := by
  have hlt : ch < 16 := of_decide_eq_true h
  rw [chBits, BitVec.toNat_ofNat]
  omega

@[simp] theorem hiByte_append (b0 b1 : Byte) : hiByte (b0 ++ b1) = b0 := by
  apply BitVec.eq_of_toNat_eq
  have h1 := b1.isLt
  rw [hiByte, BitVec.extractLsb'_toNat, toNat_append_bytes, Nat.shiftRight_eq_div_pow]
  omega

@[simp] theorem loByte_append (b0 b1 : Byte) : loByte (b0 ++ b1) = b1 := by
  apply BitVec.eq_of_toNat_eq
  rw [loByte, BitVec.extractLsb'_toNat, toNat_append_bytes, Nat.shiftRight_eq_div_pow]
  omega

/-- The decoder reads back the operands that the encoder put in. -/
theorem operandsOf_encode {i : Instr} (h : i.wellFormed = true) : operandsOf (rowOf i) (encode i) = i := by
  cases i with
  | init | wrreg | rdreg | enc16 | dec16 | scalebus => simp [rowOf, operandsOf, encode]
  | cfg o => simp [rowOf, operandsOf, encode, optionsOfVector_vectorOfOptions]
  | busaddr ch | shuntaddr ch | busraw ch | shuntraw ch | busv ch | curma ch =>
    simp [rowOf, operandsOf, encode, chBits_toNat h]

/-- Settles O2: the word is one of the command's row, and carries its operands. -/
theorem decodeInvertsEncode : Obligations.DecodeInvertsEncode := fun i h =>
  (decode_eq_ok_iff_row _ i).mpr ⟨encode_and_opMask i, (operandsOf_encode h).symm⟩

/-! ### The word of a decoded command -/

/-- The options of a vector make up the whole vector (R66). -/
theorem vectorOfOptions_optionsOfVector (v : Word) : vectorOfOptions (optionsOfVector v) = v := by
  apply BitVec.eq_of_toNat_eq
  rw [vectorOfOptions_toNat]
  simp only [optionsOfVector, BitVec.getLsbD, Nat.toNat_testBit, BitVec.extractLsb'_toNat, Nat.shiftRight_eq_div_pow]
  have hv := v.isLt
  omega

@[simp] theorem chBits_chField (w : Command) : chBits (chField w).toNat = chField w := BitVec.ofNat_toNat ..

/-- A word of a row whose reserved fields are zero is made up of the row's code and its operands. -/
theorem encode_operandsOf {w : Command} {op : Op} (hop : opField w = opCode op) (hz : ReservedZero w op) :
    encode (operandsOf op w) = w := by
  rw [command_eq_iff, hop]
  cases op <;>
    simp_all [operandsOf, encode, vectorOfOptions_optionsOfVector, ReservedZero, reservedN_iff, reservedD_iff,
      reservedA_iff, reservedR_iff, reservedC_iff]

/-- A decoded channel is the value of a 4-bit field. -/
theorem operandsOf_wellFormed (op : Op) (w : Command) : (operandsOf op w).wellFormed = true := by
  have hch : chFits (chField w).toNat = true := decide_eq_true (chField w).isLt
  cases op <;> simp [operandsOf, Instr.wellFormed, hch]

/-- Settles O3: the row's code, its operands and its zeros are all of the word. -/
theorem encodeInvertsDecode : Obligations.EncodeInvertsDecode := by
  intro w i h
  obtain ⟨op, hop, hz, rfl⟩ := (decode_eq_ok_iff w i).mp h
  exact ⟨encode_operandsOf hop hz, operandsOf_wellFormed op w⟩

/-- Settles O1: each word is decoded as it stands. -/
theorem specWordsDecodeToTheirCommands : Obligations.SpecWordsDecodeToTheirCommands :=
  ⟨rfl, rfl, rfl, rfl, rfl, rfl, rfl, rfl, rfl, rfl, rfl, rfl, rfl⟩

/-! ### The assembler's operands -/

/-- The assembler's range check of an unsigned operand. -/
theorem asmBelow_eq_ok_iff {bound n m : Nat} : asmBelow bound n = .ok m ↔ n < bound ∧ n = m := by
  by_cases h : n < bound <;> simp [asmBelow, h]

theorem asmBelow_of_lt {bound n : Nat} (h : n < bound) : asmBelow bound n = .ok n := if_pos h

theorem asmBelow_of_le {bound n : Nat} (h : bound ≤ n) : asmBelow bound n = .error .outOfRange := if_neg h.not_gt

theorem asmWord_of_range {v : Int} (hlo : -32768 ≤ v) (hhi : v < 65536) : asmWord v = .ok (trunc16 v) :=
  if_pos ⟨hlo, hhi⟩

theorem asmWord_of_out {v : Int} (h : v < -32768 ∨ 65536 ≤ v) : asmWord v = .error .outOfRange :=
  if_neg (by omega)

/-- The low 16 bits of a number, as a number (00_scope.md R9). -/
theorem trunc16_toNat (v : Int) : (trunc16 v).toNat = (v % 65536).toNat := by
  rw [trunc16, BitVec.toNat_ofInt]
  rfl

theorem asmGives_of_asmInstr {line : AsmLine} {i : Instr} {n : Nat} (h : asmInstr line = .ok i)
    (hn : (encode i).toNat = n) : AsmGives line n :=
  ⟨_, assemble_of_asmInstr_ok h, hn⟩

theorem asmFails_of_asmInstr {line : AsmLine} {e : AsmError} (h : asmInstr line = .error e) : AsmFails line :=
  ⟨e, assemble_of_asmInstr_error h⟩

/-! ### The forms (R67) -/

section ChannelForm

variable {line : Nat → AsmLine} {i : Nat → Instr} {op : Op}

/-- A form with a channel assembles to its row's word with the channel in the field `ch`. -/
theorem asmGives_channel (hline : ∀ c, asmInstr (line c) = asmBelow 16 c >>= fun c => pure (i c))
    (hword : ∀ c, encode (i c) = commandWord op (chBits c) 0 0) {c : Nat} (h : c < 16) :
    AsmGives (line c) ((opCode op).toNat * 2 ^ 28 + c * 2 ^ 24) := by
  refine asmGives_of_asmInstr (i := i c) (by rw [hline, asmBelow_of_lt h]; rfl) ?_
  simp [hword, commandWord_toNat, chBits_toNat (decide_eq_true h)]

theorem asmFails_channel (hline : ∀ c, asmInstr (line c) = asmBelow 16 c >>= fun c => pure (i c)) {c : Nat}
    (h : 16 ≤ c) : AsmFails (line c) :=
  asmFails_of_asmInstr (by rw [hline, asmBelow_of_le h]; rfl)

end ChannelForm

section DataForm

variable {line : Int → AsmLine} {i : Word → Instr} {op : Op}

/-- A form with one 16-bit operand assembles to its row's word with the operand in the field `data`. -/
theorem asmGives_data (hline : ∀ v, asmInstr (line v) = asmWord v >>= fun w => pure (i w))
    (hword : ∀ w, encode (i w) = commandWord op 0 0 w) {v : Int} (hlo : -32768 ≤ v) (hhi : v < 65536) :
    AsmGives (line v) ((opCode op).toNat * 2 ^ 28 + (v % 65536).toNat) := by
  refine asmGives_of_asmInstr (i := i (trunc16 v)) (by rw [hline, asmWord_of_range hlo hhi]; rfl) ?_
  simp [hword, commandWord_toNat, trunc16_toNat]

theorem asmFails_data (hline : ∀ v, asmInstr (line v) = asmWord v >>= fun w => pure (i w)) {v : Int}
    (h : v < -32768 ∨ 65536 ≤ v) : AsmFails (line v) :=
  asmFails_of_asmInstr (by rw [hline, asmWord_of_out h]; rfl)

end DataForm

theorem asmInstr_rdreg (a : Nat) :
    asmInstr (.rdreg a) = asmBelow 256 a >>= fun a => pure (.rdreg (BitVec.ofNat 8 a)) := rfl

theorem asmInstr_wrreg_eq (a : Nat) (v : Int) :
    asmInstr (.wrreg a v) =
      asmBelow 256 a >>= fun a => asmWord v >>= fun w => pure (.wrreg (BitVec.ofNat 8 a) w) := rfl

theorem asmInstr_dec16 (b0 b1 : Nat) :
    asmInstr (.dec16 b0 b1) =
      asmBelow 256 b0 >>= fun b0 => asmBelow 256 b1 >>= fun b1 =>
        pure (.dec16 (BitVec.ofNat 8 b0) (BitVec.ofNat 8 b1)) := rfl

/-- RDREG's word has the address in the field `addr`. -/
theorem asmGives_rdreg {a : Nat} (h : a < 256) : AsmGives (.rdreg a) (0x60000000 + a * 2 ^ 16) := by
  refine asmGives_of_asmInstr (by rw [asmInstr_rdreg, asmBelow_of_lt h]; rfl) ?_
  rw [encode, commandWord_toNat, BitVec.toNat_ofNat, Nat.mod_eq_of_lt h]
  rfl

/-- WRREG's word has the address in the field `addr` and the value in `data`. -/
theorem asmGives_wrreg {a : Nat} {v : Int} (ha : a < 256) (hlo : -32768 ≤ v) (hhi : v < 65536) :
    AsmGives (.wrreg a v) (0x50000000 + a * 2 ^ 16 + (v % 65536).toNat) := by
  refine asmGives_of_asmInstr (asmInstr_wrreg ha (asmWord_of_range hlo hhi)) ?_
  rw [encode, commandWord_toNat, trunc16_toNat, BitVec.toNat_ofNat, Nat.mod_eq_of_lt ha]
  rfl

/-- DEC16's word has both bytes in the field `data`, the first one high. -/
theorem asmGives_dec16 {b0 b1 : Nat} (h0 : b0 < 256) (h1 : b1 < 256) :
    AsmGives (.dec16 b0 b1) (0x80000000 + b0 * 2 ^ 8 + b1) := by
  refine asmGives_of_asmInstr (by rw [asmInstr_dec16, asmBelow_of_lt h0, asmBelow_of_lt h1]; rfl) ?_
  rw [encode, commandWord_toNat, toNat_append_bytes, BitVec.toNat_ofNat, BitVec.toNat_ofNat, Nat.mod_eq_of_lt h0,
    Nat.mod_eq_of_lt h1, ← add_assoc]
  rfl

theorem asmFails_dec16 {b0 b1 : Nat} (h : 256 ≤ b0 ∨ 256 ≤ b1) : AsmFails (.dec16 b0 b1) := by
  refine asmFails_of_asmInstr (e := .outOfRange) ?_
  rw [asmInstr_dec16]
  by_cases h0 : b0 < 256
  · rw [asmBelow_of_lt h0, asmBelow_of_le (bound := 256) (n := b1) (by omega)]; rfl
  · rw [asmBelow_of_le (by omega)]; rfl

/-- WRREG checks its address before its value. -/
theorem asmFails_wrreg_addr {a : Nat} (v : Int) (h : 256 ≤ a) : AsmFails (.wrreg a v) :=
  asmFails_of_asmInstr (by rw [asmInstr_wrreg_eq, asmBelow_of_le h]; rfl)

theorem asmFails_wrreg_data (a : Nat) {v : Int} (h : v < -32768 ∨ 65536 ≤ v) : AsmFails (.wrreg a v) := by
  by_cases ha : a < 256
  · exact asmFails_of_asmInstr (by rw [asmInstr_wrreg_eq, asmBelow_of_lt ha, asmWord_of_out h]; rfl)
  · exact asmFails_wrreg_addr v (by omega)

/-- Settles O56: the operands of each form in their fields, and the range check of each operand. -/
theorem assemblerEncodesItsForms : Obligations.AssemblerEncodesItsForms := by
  refine ⟨⟨_, rfl, rfl⟩, fun c h => ?channels, fun c h => ?badChannels, fun a => asmGives_rdreg, fun a h => ?badAddr,
    fun v hlo hhi => ?words, fun v h => ?badWords, fun b0 b1 => asmGives_dec16, fun b0 b1 => asmFails_dec16⟩
  case channels =>
    exact ⟨asmGives_channel (op := .busaddr) (fun _ => rfl) (fun _ => rfl) h,
      asmGives_channel (op := .shuntaddr) (fun _ => rfl) (fun _ => rfl) h,
      asmGives_channel (op := .busraw) (fun _ => rfl) (fun _ => rfl) h,
      asmGives_channel (op := .shuntraw) (fun _ => rfl) (fun _ => rfl) h,
      asmGives_channel (op := .busv) (fun _ => rfl) (fun _ => rfl) h,
      asmGives_channel (op := .curma) (fun _ => rfl) (fun _ => rfl) h⟩
  case badChannels =>
    exact ⟨asmFails_channel (fun _ => rfl) h, asmFails_channel (fun _ => rfl) h, asmFails_channel (fun _ => rfl) h,
      asmFails_channel (fun _ => rfl) h, asmFails_channel (fun _ => rfl) h, asmFails_channel (fun _ => rfl) h⟩
  case badAddr =>
    exact ⟨asmFails_of_asmInstr (by rw [asmInstr_rdreg, asmBelow_of_le h]; rfl), fun v => asmFails_wrreg_addr v h⟩
  case words =>
    exact ⟨fun a ha => asmGives_wrreg ha hlo hhi,
      asmGives_data (op := .enc16) (fun _ => rfl) (fun _ => rfl) hlo hhi,
      asmGives_data (op := .scalebus) (fun _ => rfl) (fun _ => rfl) hlo hhi⟩
  case badWords =>
    exact ⟨fun a => asmFails_wrreg_data a h, asmFails_data (fun _ => rfl) h, asmFails_data (fun _ => rfl) h⟩

/-! ### Legal words only -/

/-- A computation that may fail gives a value where its first part and then the rest do. -/
theorem except_bind_eq_ok_iff {ε α β : Type} {x : Except ε α} {f : α → Except ε β} {b : β} :
    x >>= f = .ok b ↔ ∃ a, x = .ok a ∧ f a = .ok b := by
  cases x with
  | error e => exact ⟨nofun, nofun⟩
  | ok a => exact ⟨fun h => ⟨a, rfl, h⟩, by rintro ⟨_, ⟨⟩, h⟩; exact h⟩

/-- A line's command has a word: the assembler takes the channels of the field `ch` only. -/
theorem asmInstr_wellFormed {line : AsmLine} {i : Instr} (h : asmInstr line = .ok i) : i.wellFormed = true := by
  cases line with
  | init | cfgdef | resetdev => cases h; rfl
  | busaddr c | shuntaddr c | busraw c | shuntraw c | busv c | curma c =>
    obtain ⟨_, hc, ⟨⟩⟩ := except_bind_eq_ok_iff.mp h
    obtain ⟨hlt, rfl⟩ := asmBelow_eq_ok_iff.mp hc
    exact decide_eq_true hlt
  | cfg | wrcfg | rdreg | enc16 | scalebus =>
    obtain ⟨_, -, ⟨⟩⟩ := except_bind_eq_ok_iff.mp h
    rfl
  | wrreg | dec16 =>
    obtain ⟨_, -, h'⟩ := except_bind_eq_ok_iff.mp h
    obtain ⟨_, -, ⟨⟩⟩ := except_bind_eq_ok_iff.mp h'
    rfl

/-- Settles O59: the line's command is one that has a word, and so the decoder gives it back. -/
theorem assembledWordsDecode : Obligations.AssembledWordsDecode := by
  intro line w h
  cases hi : asmInstr line with
  | error e => cases (assemble_of_asmInstr_error hi).symm.trans h
  | ok i =>
    cases (assemble_of_asmInstr_ok hi).symm.trans h
    exact ⟨i, rfl, decodeInvertsEncode i (asmInstr_wellFormed hi)⟩

end Sys2Proof.Proofs
end

section
/-! SUPPORT. What a command keeps and what it calls: the program and the launch parameters (20_memory.md R55), LOG
(10_state.md R30), the transport calls (20_memory.md R50, R52) and the mock's map (R51). -/

namespace Sys2Proof.Proofs

open Sys2Proof.Machine Sys2Proof.Config Sys2Proof.Safety Sys2Proof.Statement

/-! ### The state after a call -/

@[simp] theorem Opened_program (s : State) : (Opened s).program = s.program := rfl
@[simp] theorem Opened_transport (s : State) : (Opened s).transport = transportAfterCall s.transport := rfl
@[simp] theorem Opened_calls (s : State) : (Opened s).calls = s.calls + 1 := rfl

@[simp] theorem Wrote_program (s : State) (a : RegAddr) (v : Word) (r : Ack) : (Wrote s a v r).program = s.program :=
  State.noteWrite_program ..
@[simp] theorem Wrote_transport (s : State) (a : RegAddr) (v : Word) (r : Ack) :
    (Wrote s a v r).transport = transportAfterWrite s.transport a (wireBytes v) r := State.noteWrite_transport ..
@[simp] theorem Wrote_calls (s : State) (a : RegAddr) (v : Word) (r : Ack) : (Wrote s a v r).calls = s.calls + 1 :=
  State.noteWrite_calls ..

/-! ### What a command's end leaves -/

section Ends

variable {c t : State} {e : Option (ErrKind × ErrInfo)}

theorem Ends.program_eq (h : Ends c e t) : t.program = c.program := by cases h <;> rfl
theorem Ends.params_eq (h : Ends c e t) : t.params = c.params := by cases h <;> rfl
theorem Ends.transport_eq (h : Ends c e t) : t.transport = c.transport := by cases h <;> rfl
theorem Ends.calls_eq (h : Ends c e t) : t.calls = c.calls := by cases h <;> rfl

end Ends

/-! ### The program and the launch parameters -/

theorem CallsDone.program_eq {s c : State} {i : Instr} {e : Option (ErrKind × ErrInfo)} (h : CallsDone s i c e) :
    c.program = s.program := by
  cases h <;> simp [AfterOpen, AfterRead]

theorem CallsDone.params_eq {s c : State} {i : Instr} {e : Option (ErrKind × ErrInfo)} (h : CallsDone s i c e) :
    c.params = s.params := by
  cases h <;> simp [AfterOpen, AfterRead]

theorem Effect.program_eq {s t : State} {i : Instr} (h : Effect s i t) : t.program = s.program := by
  cases h with
  | faults _ ht => subst ht; rfl
  | ends hc he => exact he.program_eq.trans hc.program_eq

theorem Effect.params_eq {s t : State} {i : Instr} (h : Effect s i t) : t.params = s.params := by
  cases h with
  | faults _ ht => subst ht; rfl
  | ends hc he => exact he.params_eq.trans hc.params_eq

/-- Settles O49: no call and no end of a command touches either. -/
theorem commandsNeverChange : Obligations.CommandsNeverChange := fun _ _ _ h =>
  ⟨(exec_effect h).program_eq, (exec_effect h).params_eq⟩

/-! ### The calls (20_memory.md R50, R52) -/

/-- A channel that is not valid is read nowhere. -/
theorem not_readsAt_of_not_valid {s : State} {i : Instr} {c : Nat} (hc : channelOperand i = some c) (hv : ¬ Valid c)
    (a : RegAddr) : ¬ ReadsAt s i a := by
  intro h
  cases h with
  | rdreg => cases hc
  | busraw h | shuntraw h | busv h | curma h => cases hc; exact hv h

/-- What a command that does not fault logs are the calls that the spec fixes for it. -/
theorem CallsDone.callsMade {s c : State} {i : Instr} {e : Option (ErrKind × ErrInfo)} (h : CallsDone s i c e) :
    ∃ made, c.log = s.log ++ made ∧ c.calls = s.calls + made.length ∧ CallsMade s i made := by
  cases h with
  | computes hinit hwrite hread => exact ⟨[], by simp, rfl, .none hinit hwrite hread⟩
  | badChannel hc hv =>
    refine ⟨[], by simp, rfl, .none ?_ ?_ (not_readsAt_of_not_valid hc hv)⟩
    · rintro rfl; cases hc
    · rintro a v rfl; cases hc
  | openFailed => exact ⟨_, rfl, rfl, .openFailed⟩
  | opened =>
    refine ⟨_, by rw [Wrote_log, Opened_log, List.append_assoc]; rfl, by simp, .opened _⟩
  | wrote => exact ⟨_, Wrote_log .., by simp, .write _ _ _⟩
  | read hi => exact ⟨_, rfl, rfl, .read hi _⟩

/-- Settles O47: a faulting command logs no call, and any other its own. -/
theorem commandsMakeTheirCalls : Obligations.CommandsMakeTheirCalls := by
  intro i s t hfault h
  cases exec_effect h with
  | faults _ ht => subst ht; exact ⟨[], by simp, rfl, fun hnone => by simp at hnone, fun _ => rfl⟩
  | ends hc he =>
    obtain ⟨made, hlog, hcalls, hmade⟩ := hc.callsMade
    have hnone : t.fault = none := he.fault_eq.trans (hc.fault_eq.trans hfault)
    exact ⟨made, he.log_eq.trans hlog, he.calls_eq.trans hcalls, fun _ => hmade, fun hne => absurd hnone hne⟩

/-! ### LOG is not read (10_state.md R30) -/

/-- `t` is what a command leaves of `s`, and `t'` what it leaves of `s` with the log `l`: they differ in LOG alone, and
the command appended the same entries to both. -/
def SameButLog (s : State) (l : List LogEntry) (t t' : State) : Prop :=
  ∃ made, t.log = s.log ++ made ∧ t' = { t with log := l ++ made }

section SameButLog

variable (s : State) (l : List LogEntry)

theorem returnValue_sameButLog (v : Out) :
    SameButLog s l (s.returnValue v) ({ s with log := l }.returnValue v) :=
  ⟨[], by simp, by simp [State.returnValue]⟩

theorem raise_sameButLog (k : ErrKind) (info : ErrInfo) :
    SameButLog s l (s.raise k info) ({ s with log := l }.raise k info) :=
  ⟨[], by simp, by simp [State.raise]⟩

theorem takeFault_sameButLog (f : Fault) : SameButLog s l (s.takeFault f) ({ s with log := l }.takeFault f) :=
  ⟨[], by simp, by simp [State.takeFault]⟩

theorem onChannel_sameButLog (c : Nat) {k k' : State} (h : SameButLog s l k k') :
    SameButLog s l (s.onChannel c k) ({ s with log := l }.onChannel c k') := by
  cases hv : validCh c with
  | true => rwa [State.onChannel_valid _ _ hv, State.onChannel_valid _ _ hv]
  | false =>
    rw [State.onChannel_invalid _ _ hv, State.onChannel_invalid _ _ hv]
    exact raise_sameButLog ..

theorem readAnswerTo_withLog (a : RegAddr) : ReadAnswerTo { s with log := l } a = ReadAnswerTo s a := rfl

/-- One register read: its checks and the transport's answer come from the other fields. -/
theorem readAndReturn_sameButLog (a : RegAddr) (result : Int → Out) :
    SameButLog s l (s.readAndReturn a result) ({ s with log := l }.readAndReturn a result) := by
  simp only [readAndReturn_eq_readCommand, ReadCommand, readAnswerTo_withLog]
  split
  case isTrue => exact takeFault_sameButLog ..
  case isFalse =>
    split
    case isTrue => exact takeFault_sameButLog ..
    case isFalse =>
      split
      case h_1 => exact takeFault_sameButLog ..
      case h_2 => exact ⟨[_], rfl, rfl⟩
      case h_3 =>
        split
        case isTrue => exact ⟨[_], rfl, rfl⟩
        case isFalse => split <;> exact ⟨[_], rfl, rfl⟩

theorem writeRegister_of_closed {s : State} {a : RegAddr} {v : Word} (hclosed : s.handleOpen = false) :
    s.writeRegister a v = .ended (s.takeFault .noHandle) := by
  simp [State.writeRegister, hclosed]

/-- One register write by a command that then returns UNIT. -/
theorem writeAndReturn_sameButLog (a : RegAddr) (v : Word) :
    SameButLog s l (flowEnd (s.writeRegister a v) fun _ t => t.returnValue .unit)
      (flowEnd (State.writeRegister { s with log := l } a v) fun _ t => t.returnValue .unit) := by
  rcases Bool.eq_false_or_eq_true s.handleOpen with hopen | hclosed
  · rw [writeRegister_of_answer (s := s) hopen rfl,
      writeRegister_of_answer (s := { s with log := l }) (r := WriteAnswer s a (wireBytes v)) hopen rfl]
    cases WriteAnswer s a (wireBytes v) <;>
      simp only [wrote_eq, flowEnd_ended, flowEnd_value] <;>
      exact ⟨[_], rfl, rfl⟩
  · rw [writeRegister_of_closed hclosed, writeRegister_of_closed (s := { s with log := l }) hclosed]
    exact takeFault_sameButLog s l .noHandle

end SameButLog

/-- INIT: an open, and then the write, whose entry comes after the open's. -/
theorem init_sameButLog (s : State) (l : List LogEntry) :
    SameButLog s l (initState s) (initState { s with log := l }) := by
  rcases Bool.eq_false_or_eq_true s.handleOpen with hopen | hclosed
  · rw [initState_of_open hopen, initState_of_open (s := { s with log := l }) hopen]
    exact takeFault_sameButLog ..
  · cases ho : OpenAnswer s with
    | fail =>
      rw [initState_of_openFailed hclosed ho, initState_of_openFailed (s := { s with log := l }) hclosed ho]
      exact ⟨[_], rfl, rfl⟩
    | ok =>
      rw [initState_of_opened hclosed ho, initState_of_opened (s := { s with log := l }) hclosed ho]
      obtain ⟨made, hlog, heq⟩ := writeAndReturn_sameButLog (Opened s) (l ++ [.openBus s.params.busId .ok]) configAddr
        defaultConfig
      refine ⟨.openBus s.params.busId .ok :: made, by rw [hlog, Opened_log, List.append_assoc]; rfl, ?_⟩
      rw [List.append_cons]
      exact heq

/-- A command does the same with any other log. -/
theorem exec_sameButLog {i : Instr} {s t : State} (l : List LogEntry) (h : exec i s = .next t) :
    ∃ t', exec i { s with log := l } = .next t' ∧ SameButLog s l t t' := by
  cases i <;> cases h <;> refine ⟨_, rfl, ?_⟩
  case init => exact init_sameButLog s l
  case wrreg a v => exact writeAndReturn_sameButLog s l a v
  case rdreg a => exact readAndReturn_sameButLog s l a _
  case cfg | enc16 | dec16 | scalebus => exact returnValue_sameButLog s l _
  case busaddr c | shuntaddr c => exact onChannel_sameButLog s l c (returnValue_sameButLog s l _)
  case busraw c | shuntraw c | busv c | curma c =>
    exact onChannel_sameButLog s l c (readAndReturn_sameButLog s l _ _)

/-- Settles O46: the command appends its entries, and the same ones to any other log. -/
theorem logIsAppendedAndNeverRead : Obligations.LogIsAppendedAndNeverRead := by
  refine ⟨rfl, fun i s t l h => ?_⟩
  obtain ⟨_, hexec, made, hlog, rfl⟩ := exec_sameButLog l h
  exact ⟨made, hlog, hexec⟩

/-! ### The mock's map (20_memory.md R51) -/

/-- The mock with the word stored that a command stores, if any. -/
def mockWith (m : Mock) : Option (RegAddr × Word) → Mock
  | none => m
  | some (a, w) => { m with regs := m.regs.write a.toNat w }

/-- A write stores its word in the mock where it is answered ok. -/
theorem transportAfterWrite_mock (m : Mock) (a : RegAddr) (v : Word) (r : Ack) :
    transportAfterWrite (.mock m) a (wireBytes v) r = .mock (mockWith m (if r = .ok then some (a, v) else none)) := by
  cases r with
  | ok => simp [transportAfterWrite, mockWith]
  | fail => rfl

/-- On the mock, a write is answered by what the test states of its call. -/
theorem writeAnswer_mock {s : State} {m : Mock} (hm : s.transport = .mock m) (a : RegAddr) (bs : List Byte) :
    WriteAnswer s a bs = if s.calls + 1 ∈ m.fails then .fail else .ok := by
  rw [WriteAnswer, hm, transportAck_mock]

theorem openAnswer_mock {s : State} {m : Mock} (hm : s.transport = .mock m) :
    OpenAnswer s = if s.calls + 1 ∈ m.fails then .fail else .ok := by
  rw [OpenAnswer, hm, transportAck_mock]

theorem storedBy_wrreg (m : Mock) (s : State) (a : RegAddr) (v : Word) :
    StoredBy m s (.wrreg a v) = if s.handleOpen = true ∧ s.calls + 1 ∉ m.fails then some (a, v) else none := rfl

theorem storedBy_init (m : Mock) (s : State) :
    StoredBy m s .init =
      if s.handleOpen = false ∧ s.calls + 1 ∉ m.fails ∧ s.calls + 2 ∉ m.fails then some (configAddr, defaultConfig)
      else none := rfl

/-- INIT and WRREG are the only commands that store. -/
theorem storedBy_of_ne (m : Mock) (s : State) {i : Instr} (hinit : i ≠ .init) (hwrite : ∀ a v, i ≠ .wrreg a v) :
    StoredBy m s i = none := by
  cases i with
  | init => exact absurd rfl hinit
  | wrreg a v => exact absurd rfl (hwrite a v)
  | _ => rfl

theorem storedBy_of_readsAt (m : Mock) {s : State} {i : Instr} {a : RegAddr} (h : ReadsAt s i a) :
    StoredBy m s i = none := by
  cases h <;> rfl

/-- A command that faults stores nothing. -/
theorem FaultCause.storedBy_eq_none {s : State} {i : Instr} {f : Fault} (m : Mock) (h : FaultCause s i f) :
    StoredBy m s i = none := by
  cases h with
  | writeNoHandle a v hclosed => simp [storedBy_wrreg, hclosed]
  | readNoHandle hi | readUnconfigured hi | readUnwritten hi => exact storedBy_of_readsAt m hi
  | reinit hopen => simp [storedBy_init, hopen]

/-- The calls of a command leave the mock with the command's word stored. -/
theorem CallsDone.transport_mock {s c : State} {i : Instr} {e : Option (ErrKind × ErrInfo)} {m : Mock}
    (hm : s.transport = .mock m) (h : CallsDone s i c e) : c.transport = .mock (mockWith m (StoredBy m s i)) := by
  cases h with
  | computes hinit hwrite => rwa [storedBy_of_ne m s hinit hwrite]
  | badChannel hc => cases i <;> cases hc <;> exact hm
  | openFailed hopen hr =>
    have hfails : s.calls + 1 ∈ m.fails := by simpa [openAnswer_mock hm] using hr
    simp [AfterOpen, hm, transportAfterCall, storedBy_init, hfails, mockWith]
  | opened hopen ho hr =>
    have hok : s.calls + 1 ∉ m.fails := by simpa [openAnswer_mock hm] using ho
    have hm' : (Opened s).transport = .mock m := by rw [Opened_transport, hm]; rfl
    rw [Wrote_transport, hm', transportAfterWrite_mock, ← hr, writeAnswer_mock hm', Opened_calls]
    by_cases hfails : s.calls + 2 ∈ m.fails <;> simp [storedBy_init, hopen, hok, hfails]
  | wrote hopen hr =>
    rw [Wrote_transport, hm, transportAfterWrite_mock, ← hr, writeAnswer_mock hm]
    by_cases hfails : s.calls + 1 ∈ m.fails <;> simp [storedBy_wrreg, hopen, hfails]
  | read hi =>
    rw [storedBy_of_readsAt m hi]
    simp [AfterRead, hm, transportAfterCall, mockWith]

theorem Effect.transport_mock {s t : State} {i : Instr} {m : Mock} (hm : s.transport = .mock m) (h : Effect s i t) :
    t.transport = .mock (mockWith m (StoredBy m s i)) := by
  cases h with
  | faults hf ht => subst ht; rw [hf.storedBy_eq_none m]; exact hm
  | ends hc he => exact he.transport_eq.trans (hc.transport_mock hm)

/-- Settles O52: the map gets the stored word, by the read laws of the map. -/
theorem onlyWritesChangeTheMockMap : Obligations.OnlyWritesChangeTheMockMap := by
  intro i s t m hm h
  refine ⟨_, (exec_effect h).transport_mock hm, ?_⟩
  cases StoredBy m s i with
  | none => exact ⟨rfl, rfl, nofun, fun _ _ => rfl⟩
  | some stored =>
    obtain ⟨b, w⟩ := stored
    refine ⟨rfl, rfl, ?_, fun a ha => Memory.read_write_other _ _ (ha b w rfl)⟩
    rintro _ _ ⟨⟩
    exact Memory.read_write_same ..

end Sys2Proof.Proofs
end

section
/-! SUPPORT. Steps and runs (60_exceptions.md R149, R154; 70_reset_and_hazards.md R170): FAULT stops the machine, and
every run of a launched machine ends. -/

namespace Sys2Proof.Proofs

open Sys2Proof.Machine Sys2Proof.Config Sys2Proof.Safety Sys2Proof.Statement

/-! ### The step's checks -/

/-- Settles O7: of the step's checks only the decoder's is left. -/
theorem stepRunsDecodedInstruction : Obligations.StepRunsDecodedInstruction := fun _ _ _ hs h =>
  step_of_decode_ok hs h

/-- A launched machine whose FAULT is set answers that fault. -/
theorem step_of_fault {s : State} {f : Fault} (hlaunch : launchOk s.params = true) (hf : s.fault = some f) :
    step s = .fault f := by
  simp only [step, hlaunch, hf, if_true]

/-- No command runs where FAULT is set. -/
theorem step_ne_next_of_fault {s : State} (hf : s.fault ≠ none) (t : State) : step s ≠ .next t := fun h =>
  hf (step_effect h).1

/-- A launched machine without a fault that has a command to issue takes a step. -/
theorem exists_step_eq_next {s : State} {w : Command} (hs : Issues s w) : ∃ t, step s = .next t := by
  cases hd : decode w with
  | ok i => rw [step_of_decode_ok hs hd]; exact exists_exec_eq_next i s
  | error e => exact ⟨_, step_of_illegalWord hs (illegalWord_of_decode_error hd)⟩

/-- Settles O13: where there is a command the step is one of its own. -/
theorem endedProgramIsRefused : Obligations.EndedProgramIsRefused := by
  intro s hlaunch hfault
  refine ⟨fun h => ?_, fun hend => ?_⟩
  · by_contra hlt
    obtain ⟨t, ht⟩ := exists_step_eq_next ⟨hlaunch, hfault, List.getElem?_eq_getElem (Nat.lt_of_not_le hlt)⟩
    cases ht.symm.trans h
  · simp only [step, State.fetch, hlaunch, hfault, List.getElem?_eq_none hend, if_true]

/-! ### FAULT -/

/-- Settles O10: no step leads away from a state whose FAULT is set. -/
theorem faultIsSticky : Obligations.FaultIsSticky := by
  intro s f hf
  have hstop : ∀ t, step s ≠ .next t := step_ne_next_of_fault (by simp [hf])
  refine ⟨hstop, fun hlaunch => step_of_fault hlaunch hf, fun t hsteps => ?_⟩
  induction hsteps with
  | refl => rfl
  | tail _ hstep ih =>
    rw [ih] at hstep
    exact absurd hstep (hstop _)

/-- A step that leaves FAULT set took that fault and did nothing else. -/
theorem eq_takeFault_of_step {s t : State} {f : Fault} (h : step s = .next t) (hf : t.fault = some f) :
    t = s.takeFault f := by
  obtain ⟨hnone, w, -, ⟨i, -, -, heff⟩ | ⟨-, rfl⟩⟩ := step_effect h
  · cases heff with
    | faults _ ht => subst ht; cases hf; rfl
    | ends hc he => simp [he.fault_eq.trans hc.fault_eq, hnone] at hf
  · simp [hnone] at hf

/-- Settles O11: the launch stays in range, so that the next step answers the fault. -/
theorem faultChangesNothingElse : Obligations.FaultChangesNothingElse := by
  refine ⟨rfl, fun s t f h hf => ?_⟩
  obtain ⟨hlaunch, -⟩ := step_next_cases h
  obtain rfl := eq_takeFault_of_step h hf
  exact ⟨rfl, step_of_fault hlaunch rfl⟩

/-! ### The end of a run -/

theorem Steps.head {s t u : State} (h : step s = .next t) (hsteps : Steps t u) : Steps s u := by
  induction hsteps with
  | refl => exact .tail (.refl s) h
  | tail _ hlast ih => exact .tail ih hlast

/-- A step changes neither the program nor the launch. -/
theorem step_keeps_program {s t : State} (h : step s = .next t) : t.program = s.program ∧ t.params = s.params := by
  obtain ⟨-, w, -, ⟨i, -, -, heff⟩ | ⟨-, rfl⟩⟩ := step_effect h
  · exact ⟨heff.program_eq, heff.params_eq⟩
  · exact ⟨rfl, rfl⟩

/-- The run is over: it ended in success or in a fault, and takes no step. -/
def Ended (s : State) : Prop := (Succeeded s ∨ Faulted s) ∧ ∀ t, step s ≠ .next t

theorem ended_of_fault {s : State} (h : s.fault ≠ none) : Ended s := ⟨.inr h, step_ne_next_of_fault h⟩

theorem ended_of_pc {s : State} (hpc : s.pc = s.program.length) (hfault : s.fault = none) : Ended s :=
  ⟨.inl ⟨hpc, hfault⟩, pcCountsCommands.2.2 s hpc⟩

/-- With `n` commands still to run, the run ends within `n` steps: each step without a fault runs one of them. -/
theorem exists_steps_ended {n : Nat} {s : State} (hlaunch : launchOk s.params = true) (hfault : s.fault = none)
    (hpc : s.pc + n = s.program.length) : ∃ t, Steps s t ∧ t.program = s.program ∧ Ended t := by
  induction n generalizing s with
  | zero => exact ⟨s, .refl s, rfl, ended_of_pc hpc hfault⟩
  | succ n ih =>
    have hlt : s.pc < s.program.length := by omega
    obtain ⟨t, ht⟩ := exists_step_eq_next ⟨hlaunch, hfault, List.getElem?_eq_getElem hlt⟩
    obtain ⟨hprogram, hparams⟩ := step_keeps_program ht
    by_cases hf : t.fault = none
    · have hnext : t.pc = s.pc + 1 := (pcCountsCommands.2.1 s t ht).1 hf
      obtain ⟨u, hsteps, hu, hended⟩ := ih (hparams ▸ hlaunch) hf (by rw [hnext, hprogram]; omega)
      exact ⟨u, Steps.head ht hsteps, hu.trans hprogram, hended⟩
    · exact ⟨t, .tail (.refl s) ht, hprogram, ended_of_fault hf⟩

/-- Settles O14: the commands from pc to the program's end are finitely many. -/
theorem everyRunEndsOrFaults : Obligations.EveryRunEndsOrFaults := by
  intro s hlaunch hfault hpc
  obtain ⟨t, hsteps, hprogram, hend, hstop⟩ := exists_steps_ended hlaunch hfault (Nat.add_sub_cancel' hpc)
  exact ⟨t, hsteps, hprogram, hend, hstop⟩

/-! ### Several instances (R154) -/

/-- What a step of one among several is: its own step, with the result put in its place. -/
theorem stepInstance_eq_some {instances after : List State} {k : Nat} (h : stepInstance instances k = some after) :
    ∃ s t, instances[k]? = some s ∧ step s = .next t ∧ after = instances.set k t := by
  unfold stepInstance at h
  split at h
  case h_1 => cases h
  case h_2 s hs =>
    split at h <;> cases h
    case h_1 t ht => exact ⟨s, t, hs, ht, rfl⟩

/-- Settles O60: the other places of the list are left alone. -/
theorem instancesAreIndependent : Obligations.InstancesAreIndependent := by
  intro instances after k h
  obtain ⟨s, t, hs, ht, rfl⟩ := stepInstance_eq_some h
  obtain ⟨hlt, -⟩ := List.getElem?_eq_some_iff.mp hs
  exact ⟨List.length_set, fun j hj => List.getElem?_set_ne hj.symm, s, t, hs, ht, List.getElem?_set_self hlt⟩

end Sys2Proof.Proofs
end

section
/-! SUPPORT. CFG as a bijection (40_config_word.md R80), the register codec's round trips (42_register_io.md R103,
R108), the reading commands' completion, the oracle's draws (20_memory.md R48, R49) and the bus scaler's laws
(43_scaler.md R121). -/

namespace Sys2Proof.Proofs

open Sys2Proof.Machine Sys2Proof.Config Sys2Proof.Safety Sys2Proof.Statement

/-! ### CFG -/

/-- The options that a CONFIG word stands for (10_state.md R31). -/
def optionsOfConfig (w : Word) : CfgOptions where
  reset := w.getLsbD 15
  ch1 := w.getLsbD 14
  ch2 := w.getLsbD 13
  ch3 := w.getLsbD 12
  avg := w.extractLsb 11 9
  busCt := w.extractLsb 8 6
  shuntCt := w.extractLsb 5 3
  mode := w.extractLsb 2 0

theorem optionsOfConfig_configure (o : CfgOptions) : optionsOfConfig (configure o) = o := by
  obtain ⟨hreset, hch1, hch2, hch3, havg, hbusCt, hshuntCt, hmode⟩ := configure_fields o
  rw [optionsOfConfig, hreset, hch1, hch2, hch3, havg, hbusCt, hshuntCt, hmode]

theorem configure_optionsOfConfig (w : Word) : configure (optionsOfConfig w) = w := by
  apply BitVec.eq_of_getLsbD_eq
  intro i hi
  interval_cases i <;> simp [configure, flagBit, optionsOfConfig]

/-- CFG answers the word that its options build, in every state. -/
theorem exec_cfg_eq_iff (o : CfgOptions) (w : Word) :
    (∀ s : State, exec (.cfg o) s = .next (Returned s (.w16 w))) ↔ configure o = w := by
  constructor
  · intro h
    have hout : State.returnValue State.reset (.w16 (configure o)) = Returned State.reset (.w16 w) :=
      Host.Outcome.next.inj (h State.reset)
    exact Out.w16.inj (congrArg State.out hout)
  · rintro rfl s
    rfl

/-- Settles O17: a word's vector is that of the options that the word stands for. -/
theorem cfgIsABijection : Obligations.CfgIsABijection := by
  refine ⟨fun w => ?_, (exec_cfg_eq_iff _ _).mpr rfl⟩
  simp only [exec_cfg_eq_iff]
  refine ⟨vectorOfOptions (optionsOfConfig w), ?_, fun v hv => ?_⟩
  · simp only [optionsOfVector_vectorOfOptions, configure_optionsOfConfig]
  · rw [← hv, optionsOfConfig_configure, vectorOfOptions_optionsOfVector]

/-! ### The codec's round trip -/

/-- The decoder reads a value's two bytes back. -/
theorem dec16_hiByte_loByte (v : Word) : dec16 (hiByte v) (loByte v) = v.toInt := by
  rw [dec16, hiByte_append_loByte, sext16_eq_toInt]

/-- Settles O28. -/
theorem decodedBytesAreTheValue : Obligations.DecodedBytesAreTheValue := fun v =>
  ⟨dec16_hiByte_loByte v, (congrArg trunc16 (dec16_hiByte_loByte v)).trans (BitVec.ofInt_toInt ..)⟩

/-! ### A read of two bytes -/

/-- A read that is answered with two bytes completes with its sample. -/
theorem readCommand_of_twoBytes {s : State} {a : RegAddr} {b0 b1 : Byte} (result : Int → Out)
    (hopen : s.handleOpen = true) (hcfg : s.cfgState = .configured) (hr : ReadAnswerTo s a = some (.bytes [b0, b1])) :
    ReadCommand s a result = Returned (AfterRead s a (.bytes [b0, b1])) (result (b0 ++ b1).toInt) := by
  simp only [ReadCommand, hopen, hcfg, hr, reduceCtorEq, if_false, ← signedBigEndian_pair]
  rfl

/-- Settles O24: each reading command is one read, whatever it makes of the sample. -/
theorem readsCompleteOnTwoBytes : Obligations.ReadsCompleteOnTwoBytes := by
  rintro s _ a b0 b1 _ hopen hcfg hr rfl rfl
  have hread := fun result => readCommand_of_twoBytes result hopen hcfg hr
  obtain ⟨-, hrdreg⟩ := rdregFollowsReadRegister
  obtain ⟨-, hbusraw, -⟩ := busrawScalesTheBusSample
  obtain ⟨-, hshuntraw, -⟩ := shuntrawReturnsTheShuntSample
  obtain ⟨-, hbusv, -⟩ := busvMultipliesByTheConstant
  obtain ⟨-, hcurma, -⟩ := curmaDividesByTheShunt
  refine ⟨by rw [hrdreg, hread], fun c hc ha => ?_, fun c hc ha => ?_, fun c hc ha => ?_, fun c hc ha => ?_⟩
  · rw [hbusraw s c hc, ← ha, hread]
  · rw [hshuntraw s c hc, ← ha, hread]
  · rw [hbusv s c hc, ← ha, hread]
  · rw [hcurma s c hc, ← ha, hread]

/-- RDREG of two bytes that are a value's returns the value. -/
theorem exec_rdreg_of_wireBytes {s : State} {a : RegAddr} {v : Word} (hopen : s.handleOpen = true)
    (hcfg : s.cfgState = .configured) (hr : ReadAnswerTo s a = some (.bytes (wireBytes v))) :
    exec (.rdreg a) s = .next (Returned (AfterRead s a (.bytes (wireBytes v))) (.i v.toInt)) := by
  obtain ⟨hrdreg, -⟩ := readsCompleteOnTwoBytes s _ a (hiByte v) (loByte v) _ hopen hcfg hr rfl rfl
  rwa [hiByte_append_loByte] at hrdreg

/-! ### The round trip on the mock (42_register_io.md R108) -/

/-- WRREG whose write is answered ok returns UNIT. -/
theorem exec_wrreg_of_ok {s : State} {a : RegAddr} {v : Word} (hopen : s.handleOpen = true)
    (hr : WriteAnswer s a (wireBytes v) = .ok) :
    exec (.wrreg a v) s = .next (Returned (Wrote s a v .ok) .unit) := by
  rw [exec_wrreg, writeRegister_of_answer hopen hr]
  rfl

/-- A write that was answered ok leaves a Configured device Configured, but for a reset word at CONFIG. -/
theorem cfgAfterWrite_ok (a : RegAddr) (v : Word) :
    CfgAfterWrite .configured a v .ok =
      if a = 0x00 ∧ v.getLsbD 15 = true then .unconfigured else .configured := by
  by_cases ha : a = 0x00 <;> cases hv : v.getLsbD 15 <;>
    simp only [CfgAfterWrite, ha, hv, if_true, if_false, true_and, false_and, reduceCtorEq]

/-- Settles O29: the read's answer is the map's word, which the write stored. -/
theorem mockRoundTrip : Obligations.MockRoundTrip := by
  intro s m a v hm hopen hcfg hwrite hread hlookup
  have hok : WriteAnswer s a (wireBytes v) = .ok := by rw [writeAnswer_mock hm, if_neg hwrite]
  have hcfg' : (Wrote s a v .ok).cfgState = if a = 0x00 ∧ v.getLsbD 15 = true then .unconfigured else .configured := by
    rw [wrote_eq, hcfg]
    exact cfgAfterWrite_ok a v
  have hopen' : (Wrote s a v .ok).handleOpen = true := by rw [Wrote_handleOpen, hopen]
  refine ⟨_, exec_wrreg_of_ok hopen hok, rfl, rfl, fun hkeeps => ?_, fun hreset => ?_⟩
  · have hr : ReadAnswerTo (Returned (Wrote s a v .ok) .unit) a = some (.bytes (wireBytes v)) := by
      have ht : (Returned (Wrote s a v .ok) .unit).transport = .mock (mockWith m (some (a, v))) := by
        show (Wrote s a v .ok).transport = _
        rw [Wrote_transport, hm, transportAfterWrite_mock, if_pos rfl]
      have hcalls : (Returned (Wrote s a v .ok) .unit).calls + 1 = s.calls + 2 := by
        show (Wrote s a v .ok).calls + 1 = _
        rw [Wrote_calls]
      rw [readAnswerTo_mock a ht, hcalls, mockReadAnswer_of_read (w := v) _ (Memory.read_write_same ..)]
      simp [mockWith, hread, hlookup]
    exact ⟨_, exec_rdreg_of_wireBytes hopen' (hcfg'.trans (if_neg hkeeps)) hr, rfl, rfl, Wrote_fault ..⟩
  · exact (FaultCause.readUnconfigured (s := Returned (Wrote s a v .ok) .unit) (.rdreg a) hopen'
      (hcfg'.trans (if_pos hreset))).exec_eq

/-! ### The oracle -/

/-- The statements' reading of a draw is the model's (entry 4). -/
theorem drawReadAnswer_eq (d : Draw) : drawReadAnswer d = if d.ack = .ok then .bytes d.bytes else .fail := by
  obtain ⟨ack, bytes⟩ := d
  cases ack <;> rfl

/-- Settles O50: the next listed draw answers, and is dropped. -/
theorem oracleAnswersWithItsDraws : Obligations.OracleAnswersWithItsDraws := by
  refine ⟨fun s d ds a bs h => ?listed, fun s ds a h => ?reads, fun r => ?answers⟩
  case listed =>
    simp only [OpenAnswer, WriteAnswer, ReadAnswerTo, h, ← drawReadAnswer_eq]
    exact ⟨rfl, rfl, rfl, rfl, fun r => rfl⟩
  case reads => exact ⟨_, by rw [ReadAnswerTo, h, transportReadAnswer_oracle]⟩
  case answers =>
    obtain ⟨d, rfl⟩ := exists_drawReadAnswer r
    exact ⟨d, drawReadAnswer_eq d⟩

/-- A machine that is ready to read, on an oracle that will answer with the bytes of `v` and then of `w`. -/
def readingTwo (v w : Word) : State :=
  { State.reset with
    handleOpen := true, cfgState := .configured, transport := .oracle [⟨.ok, wireBytes v⟩, ⟨.ok, wireBytes w⟩] }

/-- Settles O53: the oracle's two draws are independent. -/
theorem readsAreNotIdempotent : Obligations.ReadsAreNotIdempotent := fun a v w =>
  ⟨readingTwo v w, _, _, show launchOk defaultParams = true by decide, rfl,
    exec_rdreg_of_wireBytes (v := v) rfl rfl rfl, rfl, exec_rdreg_of_wireBytes (v := w) rfl rfl rfl, rfl⟩

/-! ### The bus scaler -/

/-- Settles O35: the laws of four times the floor of an eighth. -/
theorem busScaleLaws : Obligations.BusScaleLaws := by
  refine ⟨fun v hlo hhi => ?_, by decide, by decide, by decide, by decide⟩
  simp only [busScale_eq]
  refine ⟨trivial, Int.dvd_mul_right .., by omega, by omega, by omega, fun w hw => by omega⟩

end Sys2Proof.Proofs
end

section
/-! SUPPORT. The invariant of the block's state, which every step keeps, and the booted machine on the oracle, which no
step faults (10_state.md sections 1 and 4, 60_exceptions.md section 2, 70_reset_and_hazards.md section 2). -/

namespace Sys2Proof.Proofs

open Sys2Proof.Machine Sys2Proof.Config Sys2Proof.Safety Sys2Proof.Statement

/-! ### Calls change no outcome -/

@[simp] theorem Wrote_out (s : State) (a : RegAddr) (v : Word) (r : Ack) : (Wrote s a v r).out = s.out :=
  State.noteWrite_out ..
@[simp] theorem Wrote_err (s : State) (a : RegAddr) (v : Word) (r : Ack) : (Wrote s a v r).err = s.err :=
  State.noteWrite_err ..
@[simp] theorem Wrote_errinfo (s : State) (a : RegAddr) (v : Word) (r : Ack) : (Wrote s a v r).errinfo = s.errinfo :=
  State.noteWrite_errinfo ..
@[simp] theorem Opened_out (s : State) : (Opened s).out = s.out := rfl
@[simp] theorem Opened_err (s : State) : (Opened s).err = s.err := rfl
@[simp] theorem Opened_errinfo (s : State) : (Opened s).errinfo = s.errinfo := rfl

section CallsDone

variable {s c : State} {i : Instr} {e : Option (ErrKind × ErrInfo)}

theorem CallsDone.out_eq (h : CallsDone s i c e) : c.out = s.out := by cases h <;> simp [AfterOpen, AfterRead]
theorem CallsDone.err_eq (h : CallsDone s i c e) : c.err = s.err := by cases h <;> simp [AfterOpen, AfterRead]
theorem CallsDone.errinfo_eq (h : CallsDone s i c e) : c.errinfo = s.errinfo := by
  cases h <;> simp [AfterOpen, AfterRead]

/-! ### What the calls keep of the invariant -/

/-- The handle follows the logged opens (10_state.md R24). -/
theorem CallsDone.handleOpen_eq_any (h : CallsDone s i c e) (hs : s.handleOpen = s.log.any isOpenOk) :
    c.handleOpen = c.log.any isOpenOk := by
  cases h with
  | computes | badChannel => exact hs
  | openFailed hopen => simp [AfterOpen, isOpenOk, ← hs, hopen]
  | opened => simp [isOpenOk]
  | wrote hopen => simp [isOpenOk, ← hs, hopen]
  | read _ hopen => simp [AfterRead, isOpenOk, ← hs, hopen]

/-- Without a handle a command logs a failed open at most (60_exceptions.md R145). -/
theorem CallsDone.openFailures (h : CallsDone s i c e)
    (hs : s.handleOpen = false → ∀ entry ∈ s.log, ∃ bus, entry = .openBus bus .fail) (hclosed : c.handleOpen = false) :
    ∀ entry ∈ c.log, ∃ bus, entry = .openBus bus .fail := by
  cases h with
  | computes | badChannel => exact hs hclosed
  | openFailed hopen =>
    intro entry hmem
    rcases List.mem_append.mp hmem with hold | hnew
    · exact hs hopen entry hold
    · exact ⟨_, List.mem_singleton.mp hnew⟩
  | opened => simp at hclosed
  | wrote hopen => simp [hopen] at hclosed
  | read _ hopen => simp [AfterRead, hopen] at hclosed

end CallsDone

theorem transportOk_afterCall {t : Transport} (h : transportOk t) : transportOk (transportAfterCall t) := by
  cases t with
  | oracle => trivial
  | mock m => exact h

/-- A write of a word keeps the mock's map in its canonical form. -/
theorem transportOk_afterWrite {t : Transport} (h : transportOk t) (a : RegAddr) (v : Word) (r : Ack) :
    transportOk (transportAfterWrite t a (wireBytes v) r) := by
  cases t with
  | oracle => cases r <;> trivial
  | mock m =>
    cases r with
    | ok => exact mockStore_wf m a v h
    | fail => exact h

theorem CallsDone.keeps_transportOk {s c : State} {i : Instr} {e : Option (ErrKind × ErrInfo)} (h : CallsDone s i c e)
    (hs : transportOk s.transport) : transportOk c.transport := by
  cases h with
  | computes | badChannel => exact hs
  | openFailed | read => exact transportOk_afterCall hs
  | opened => rw [Wrote_transport]; exact transportOk_afterWrite (transportOk_afterCall hs) ..
  | wrote => rw [Wrote_transport]; exact transportOk_afterWrite hs ..

/-- The calls of a command keep the invariant, before the command ends. -/
theorem CallsDone.inv {s c : State} {i : Instr} {e : Option (ErrKind × ErrInfo)} (h : CallsDone s i c e) (hs : Inv s)
    (hfault : s.fault = none) : Inv c where
  outcome := by rw [outcomeOk, h.out_eq, h.err_eq, h.errinfo_eq]; exact hs.outcome
  range := by rw [h.out_eq]; exact hs.range
  entries := by
    obtain ⟨made, hlog, hmade⟩ := h.entriesOk
    rw [hlog, h.params_eq]
    exact List.forall_mem_append.mpr ⟨hs.entries, hmade⟩
  handle := h.handleOpen_eq_any hs.handle
  opened := h.openFailures hs.opened
  config := by
    obtain ⟨made, hlog, hcfg⟩ := h.cfgState_eq
    rw [hlog, hcfg, cfgAfterLog, List.foldl_append, hs.config, cfgAfterLog]
  counted := by
    obtain ⟨made, hlog, hcalls, -⟩ := h.callsMade
    rw [hlog, hcalls, List.length_append, hs.counted]
  transport := h.keeps_transportOk hs.transport
  fault := by simp [faultOk, h.fault_eq, hfault]
  pc := by rw [h.pc_eq, h.program_eq]; exact hs.pc

/-! ### How a command ends -/

/-- An error that a command can raise: its code and payload belong to its diagnostic (10_state.md R22, R23). -/
def errorOk (k : ErrKind) (info : ErrInfo) : Prop := errCode k = errOfInfo info ∧ infoOk info

/-- A channel that is not valid but fits its field is one that BAD_CHANNEL records. -/
theorem errorOk_badChannel {c : Nat} (hlt : c < 16) (hv : ¬ Valid c) : errorOk .preconditionError (.badChannel c) := by
  refine ⟨rfl, hlt, ?_⟩
  simpa [Valid, not_or] using hv

theorem CallsDone.errorOk_of_eq_some {s c : State} {i : Instr} {e : Option (ErrKind × ErrInfo)} (h : CallsDone s i c e)
    (hch : ∀ ch, channelOperand i = some ch → ch < 16) {k : ErrKind} {info : ErrInfo} (he : e = some (k, info)) :
    errorOk k info := by
  cases h.errorCause he with
  | openFailed | writeFailed | readFailed => exact ⟨rfl, trivial⟩
  | wrongCount _ hinfo => rcases hinfo with ⟨hlen, rfl⟩ | ⟨hlen, rfl⟩ <;> exact ⟨rfl, hlen⟩
  | badChannel hc hv => exact errorOk_badChannel (hch _ hc) hv

/-- A value in range that a command returns keeps the invariant. -/
theorem returnValue_inv {s : State} {v : Out} (hs : Inv s) (hfault : s.fault = none) (hpc : s.pc < s.program.length)
    (hv : outRangeOk v) : Inv (s.returnValue v) where
  outcome := ⟨rfl, trivial, fun h => absurd rfl h⟩
  range := hv
  entries := hs.entries
  handle := hs.handle
  opened := hs.opened
  config := hs.config
  counted := hs.counted
  transport := hs.transport
  fault := by simp [faultOk, hfault]
  pc := hpc

theorem raise_inv {s : State} {k : ErrKind} {info : ErrInfo} (hs : Inv s) (hfault : s.fault = none)
    (hpc : s.pc < s.program.length) (he : errorOk k info) : Inv (s.raise k info) where
  outcome := ⟨he.1, he.2, fun _ => rfl⟩
  range := trivial
  entries := hs.entries
  handle := hs.handle
  opened := hs.opened
  config := hs.config
  counted := hs.counted
  transport := hs.transport
  fault := by simp [faultOk, hfault]
  pc := hpc

theorem takeFault_inv {s : State} {i : Instr} {f : Fault} (hs : Inv s) (hf : FaultCause s i f) :
    Inv (s.takeFault f) where
  outcome := hs.outcome
  range := hs.range
  entries := hs.entries
  handle := hs.handle
  opened := hs.opened
  config := hs.config
  counted := hs.counted
  transport := hs.transport
  fault := by
    cases hf with
    | writeNoHandle _ _ hclosed | readNoHandle _ hclosed => exact hclosed
    | readUnconfigured _ hopen hcfg => exact ⟨hopen, hcfg⟩
    | readUnwritten _ hopen hcfg hr =>
      obtain ⟨m, hm, -⟩ := (readAnswerTo_eq_none_iff s _).mp hr
      exact ⟨hopen, hcfg, m, hm⟩
    | reinit hopen => exact hopen
  pc := hs.pc

/-! ### The range of an integer result -/

theorem outRangeOk_toInt (v : Word) : outRangeOk (.i v.toInt) :=
  ⟨BitVec.le_toInt v, Int.le_of_lt_add_one BitVec.toInt_lt⟩

/-- The bus scaler keeps a sample in the range (43_scaler.md R121). -/
theorem outRangeOk_busScale (v : Word) : outRangeOk (.i (busScale v.toInt)) := by
  obtain ⟨hlo, hhi⟩ := outRangeOk_toInt v
  rw [busScale_eq]
  constructor <;> omega

/-- A command that makes one register read leaves a result in range where every sample's is. -/
theorem readAndReturn_outRange {s : State} (a : RegAddr) {result : Int → Out} (hs : outRangeOk s.out)
    (hresult : ∀ v : Word, outRangeOk (result v.toInt)) : outRangeOk (s.readAndReturn a result).out := by
  rcases State.readAndReturn_cases s a result with
    ⟨-, e⟩ | ⟨-, -, e⟩ | ⟨-, -, -, e⟩ |
    ⟨-, -, r, t, -, rfl, ⟨-, e⟩ | ⟨b0, b1, -, e⟩ | ⟨bs, -, -, e⟩ | ⟨bs, -, -, e⟩⟩ <;> rw [e]
  · exact hs
  · exact hs
  · exact hs
  · trivial
  · rw [State.returnValue_out, dec16, sext16_eq_toInt]
    exact hresult _
  · trivial
  · trivial

theorem onChannel_outRange {s k : State} (c : Nat) (hk : outRangeOk k.out) : outRangeOk (s.onChannel c k).out := by
  rw [State.onChannel]
  split
  · exact hk
  · trivial

/-- A register write leaves no integer result. -/
theorem writeAndReturn_outRange {s : State} (a : RegAddr) (v : Word) (hs : outRangeOk s.out) :
    outRangeOk (flowEnd (s.writeRegister a v) fun _ t => t.returnValue .unit).out := by
  rcases State.writeRegister_cases s a v with ⟨-, e⟩ | ⟨-, r, -, e⟩
  · rw [e]; exact hs
  · rw [e]; cases r <;> trivial

theorem init_outRange {s : State} (hs : outRangeOk s.out) : outRangeOk (initState s).out := by
  cases hopen : s.handleOpen with
  | true => rw [initState_of_open hopen]; exact hs
  | false =>
    cases ho : OpenAnswer s with
    | fail => rw [initState_of_openFailed hopen ho]; trivial
    | ok => rw [initState_of_opened hopen ho]; exact writeAndReturn_outRange _ _ hs

/-- Every command leaves a result in range. -/
theorem exec_outRange {i : Instr} {s t : State} (h : exec i s = .next t) (hs : outRangeOk s.out) :
    outRangeOk t.out := by
  cases i <;> cases h
  case init => exact init_outRange hs
  case wrreg a v => exact writeAndReturn_outRange a v hs
  case cfg | enc16 => trivial
  case busaddr c | shuntaddr c => exact onChannel_outRange c trivial
  case rdreg a => exact readAndReturn_outRange a hs outRangeOk_toInt
  case dec16 b0 b1 =>
    rw [State.returnValue_out, dec16, sext16_eq_toInt]
    exact outRangeOk_toInt _
  case scalebus raw =>
    rw [State.returnValue_out, sext16_eq_toInt]
    exact outRangeOk_busScale raw
  case busraw c => exact onChannel_outRange c (readAndReturn_outRange _ hs outRangeOk_busScale)
  case shuntraw c => exact onChannel_outRange c (readAndReturn_outRange _ hs outRangeOk_toInt)
  case busv c | curma c => exact onChannel_outRange c (readAndReturn_outRange _ hs fun _ => trivial)

/-! ### The invariant -/

/-- Settles O54. -/
theorem invariantHoldsAtReset : Obligations.InvariantHoldsAtReset where
  outcome := ⟨rfl, trivial, fun _ => rfl⟩
  range := trivial
  entries := nofun
  handle := rfl
  opened := fun _ => nofun
  config := rfl
  counted := rfl
  transport := trivial
  fault := trivial
  pc := le_rfl

/-- A command keeps the invariant where it was issued from the program and its channel fits the command word. -/
theorem exec_inv {s t : State} {i : Instr} (h : exec i s = .next t) (hs : Inv s) (hfault : s.fault = none)
    (hpc : s.pc < s.program.length) (hch : ∀ ch, channelOperand i = some ch → ch < 16) : Inv t := by
  have hrange : outRangeOk t.out := exec_outRange h hs.range
  cases exec_effect h with
  | faults hf ht => subst ht; exact takeFault_inv hs hf
  | ends hc he =>
    have hc_inv := hc.inv hs hfault
    have hc_fault := hc.fault_eq.trans hfault
    have hc_pc := (congrArg₂ (· < ·) hc.pc_eq (congrArg List.length hc.program_eq)).mpr hpc
    cases he with
    | value v => exact returnValue_inv hc_inv hc_fault hc_pc hrange
    | error k info => exact raise_inv hc_inv hc_fault hc_pc (hc.errorOk_of_eq_some hch rfl)

/-- Settles O55: a step issues a command of the program, whose channel is a 4-bit field, or an illegal word. -/
theorem stepKeepsTheInvariant : Obligations.StepKeepsTheInvariant := by
  intro s t hs h
  obtain ⟨hfault, w, hw, hstep⟩ := step_effect h
  obtain ⟨hpc, -⟩ := List.getElem?_eq_some_iff.mp hw
  rcases hstep with ⟨i, hi, hexec, -⟩ | ⟨-, rfl⟩
  · refine exec_inv hexec hs hfault hpc fun ch hc => ?_
    rw [channelOperand_of_decode hi hc]
    exact (w.extractLsb 27 24).isLt
  · exact raise_inv hs hfault hpc ⟨rfl, trivial⟩

/-! ### The booted machine -/

theorem keepsConfig_cons {w : Command} {ws : List Command} :
    KeepsConfig (w :: ws) ↔ (∀ i, decode w = .ok i → i ≠ .init ∧ ∀ v, i ≠ .wrreg 0x00 v) ∧ KeepsConfig ws :=
  List.forall_mem_cons

/-- Every call leaves the oracle an oracle. -/
theorem CallsDone.onOracle {s c : State} {i : Instr} {e : Option (ErrKind × ErrInfo)} (h : CallsDone s i c e)
    (hs : OnOracle s) : OnOracle c := by
  obtain ⟨draws, hdraws⟩ := hs
  have hcall : transportAfterCall s.transport = .oracle draws.tail := by rw [hdraws]; rfl
  have hwrite (ds : List Draw) (a : RegAddr) (bs : List Byte) (r : Ack) :
      transportAfterWrite (.oracle ds) a bs r = .oracle ds.tail := by cases r <;> rfl
  cases h with
  | computes | badChannel => exact ⟨draws, hdraws⟩
  | openFailed | read => exact ⟨_, hcall⟩
  | opened => exact ⟨_, by rw [Wrote_transport, Opened_transport, hcall, hwrite]⟩
  | wrote => exact ⟨_, by rw [Wrote_transport, hdraws, hwrite]⟩

/-- A command that is no INIT and no WRREG at CONFIG keeps cfg_state (10_state.md R25). -/
theorem CallsDone.cfgState_eq_of_keeps {s c : State} {i : Instr} {e : Option (ErrKind × ErrInfo)}
    (h : CallsDone s i c e) (hinit : i ≠ .init) (hwrite : ∀ v, i ≠ .wrreg 0x00 v) : c.cfgState = s.cfgState := by
  cases h with
  | computes | badChannel | read => rfl
  | openFailed | opened => exact absurd rfl hinit
  | @wrote a v r =>
    rw [Wrote_cfgState]
    exact if_neg fun ha => hwrite v (by rw [ha])

/-- On a booted machine only a second INIT has cause for a fault. -/
theorem FaultCause.eq_init {s : State} {i : Instr} {f : Fault} (h : FaultCause s i f) (hs : Booted s) : i = .init := by
  cases h with
  | writeNoHandle _ _ hclosed | readNoHandle _ hclosed => simp [hs.handle] at hclosed
  | readUnconfigured _ _ hcfg => simp [hs.config] at hcfg
  | readUnwritten _ _ _ hr =>
    obtain ⟨m, hm, -⟩ := (readAnswerTo_eq_none_iff s _).mp hr
    obtain ⟨draws, hdraws⟩ := hs.oracle
    cases hdraws.symm.trans hm
  | reinit => rfl

/-- How a command ends changes nothing that a booted machine rests on, and goes on to the rest of the program. -/
theorem Ends.booted {c t : State} {e : Option (ErrKind × ErrInfo)} (h : Ends c e t) (hfault : c.fault = none)
    (hopen : c.handleOpen = true) (hcfg : c.cfgState = .configured) (horacle : OnOracle c)
    (hrest : KeepsConfig (c.program.drop (c.pc + 1))) : Booted t where
  fault := h.fault_eq.trans hfault
  handle := h.handleOpen_eq.trans hopen
  config := h.cfgState_eq.trans hcfg
  oracle := by rwa [OnOracle, h.transport_eq]
  rest := by rwa [h.program_eq, h.pc_eq]

/-- A step from a booted state leads to a booted state. -/
theorem step_booted {s t : State} (hs : Booted s) (h : step s = .next t) : Booted t := by
  obtain ⟨hfault, w, hw, hstep⟩ := step_effect h
  obtain ⟨hlt, rfl⟩ := List.getElem?_eq_some_iff.mp hw
  have hrest := hs.rest
  rw [List.drop_eq_getElem_cons hlt, keepsConfig_cons] at hrest
  obtain ⟨hkeeps, hrest⟩ := hrest
  rcases hstep with ⟨i, hi, -, heff⟩ | ⟨-, rfl⟩
  · obtain ⟨hinit, hwrite⟩ := hkeeps i hi
    cases heff with
    | faults hf => exact absurd (hf.eq_init hs) hinit
    | ends hc he =>
      exact he.booted (hc.fault_eq.trans hfault) (hc.handleOpen_iff.mpr (.inl hs.handle))
        ((hc.cfgState_eq_of_keeps hinit hwrite).trans hs.config) (hc.onOracle hs.oracle)
        (by rwa [hc.program_eq, hc.pc_eq])
  · exact (Ends.error .preconditionError .illegalCommand).booted hfault hs.handle hs.config hs.oracle hrest

/-- An INIT without an error opened the handle and wrote DEFAULT_CONFIG, whose bit 15 is 0. -/
theorem CallsDone.init_ok {s c : State} (h : CallsDone s .init c none) :
    c.handleOpen = true ∧ c.cfgState = .configured := by
  generalize hi : Instr.init = i at h
  generalize he : (none : Option (ErrKind × ErrInfo)) = e at h
  cases h with
  | computes hinit => exact absurd hi.symm hinit
  | badChannel | openFailed => cases he
  | @opened r =>
    cases r with
    | ok => exact ⟨by simp, by rw [Wrote_cfgState]; rfl⟩
    | fail => cases he
  | wrote => cases hi
  | read hread => subst hi; cases hread

/-- Settles O15: a booted machine's step keeps it booted, and an INIT that ends without an error boots it. -/
theorem bootedProgramNeverFaults : Obligations.BootedProgramNeverFaults := by
  refine ⟨fun s t hs h => step_booted hs h, fun s t hfault hclosed horacle hrest h herr => ?_⟩
  cases exec_effect h with
  | faults hf ht =>
    cases hf with
    | readNoHandle hi | readUnconfigured hi | readUnwritten hi => cases hi
    | reinit hopen => simp [hclosed] at hopen
  | ends hc he =>
    cases he with
    | error k info => cases k <;> cases herr
    | value v hv =>
      obtain ⟨hopen, hcfg⟩ := hc.init_ok
      exact (Ends.value v hv).booted (hc.fault_eq.trans hfault) hopen hcfg (hc.onOracle horacle)
        (by rwa [hc.program_eq, hc.pc_eq])

end Sys2Proof.Proofs
end

section
/-! SUPPORT. binary64 (00_scope.md R10): the number of a pattern by its parts, and the model's rounding of a quotient as
the nearest of all numbers with 53 significant bits. -/

namespace Sys2Proof.Proofs

open Sys2Proof.Machine Sys2Proof.Config Sys2Proof.Safety

/-! ### Signs and magnitudes -/

/-- The factor of a sign bit. -/
def signOf (neg : Bool) : ℚ := if neg then -1 else 1

/-- The magnitude of a pattern's number. -/
def f64Magnitude (p : F64) : ℚ := f64Mant p * 2 ^ f64Scale p

theorem f64Value_eq (p : F64) : f64Value p = signOf (f64Neg p) * f64Magnitude p := mul_assoc ..

theorem signOf_mul_self (neg : Bool) : signOf neg * signOf neg = 1 := by cases neg <;> norm_num [signOf]

/-- The sign of a product, and of a quotient, is negative where just one of the two is. -/
theorem signOf_bne (a b : Bool) : signOf (a != b) = signOf a * signOf b := by cases a <;> cases b <;> norm_num [signOf]

theorem abs_signOf_mul (neg : Bool) (x : ℚ) : |signOf neg * x| = |x| := by cases neg <;> simp [signOf]

/-- A common sign drops out of a distance. -/
theorem abs_signOf_mul_sub (neg : Bool) (v x : ℚ) : |v - signOf neg * x| = |signOf neg * v - x| := by
  rw [← abs_signOf_mul neg, mul_sub, ← mul_assoc, signOf_mul_self, one_mul]

theorem f64Magnitude_nonneg (p : F64) : 0 ≤ f64Magnitude p := by unfold f64Magnitude; positivity

theorem abs_f64Value (p : F64) : |f64Value p| = f64Magnitude p := by
  rw [f64Value_eq, abs_signOf_mul, abs_of_nonneg (f64Magnitude_nonneg p)]

theorem f64Mant_lt (p : F64) : f64Mant p < 2 ^ 53 := by
  have hfrac := f64Frac_lt p
  unfold f64Mant
  split <;> omega

theorem le_f64Scale (p : F64) : -1074 ≤ f64Scale p := by
  unfold f64Scale
  split <;> omega

/-! ### The parts of a packed pattern -/

/-- The bits of a magnitude `q * 2 ^ e`, for `q` up to `2 ^ 53`: a significand of `2 ^ 52` or more carries into the
exponent. -/
def magBits (e : ℤ) (q : ℕ) : ℕ := (e + 1074).toNat * 2 ^ 52 + q

section Pack

variable {neg : Bool} {mag : ℕ}

theorem f64Pack_toNat (h : mag < 2 ^ 63) : (f64Pack neg mag).toNat = (if neg then 2 ^ 63 else 0) + mag := by
  rw [f64Pack, BitVec.toNat_ofNat]
  split <;> omega

theorem f64Neg_pack (h : mag < 2 ^ 63) : f64Neg (f64Pack neg mag) = neg := by
  have hmsb : f64Neg (f64Pack neg mag) = decide (2 ^ 63 ≤ (f64Pack neg mag).toNat) :=
    (BitVec.msb_eq_getLsbD_last _).symm.trans (BitVec.msb_eq_decide _)
  rw [hmsb, f64Pack_toNat h]
  cases neg with
  | false => simpa using h
  | true => simp

theorem f64Expo_pack (h : mag < 2 ^ 63) : f64Expo (f64Pack neg mag) = mag / 2 ^ 52 := by
  rw [f64Expo, BitVec.extractLsb'_toNat, f64Pack_toNat h, Nat.shiftRight_eq_div_pow]
  split <;> omega

theorem f64Frac_pack (h : mag < 2 ^ 63) : f64Frac (f64Pack neg mag) = mag % 2 ^ 52 := by
  rw [f64Frac, BitVec.extractLsb'_toNat, f64Pack_toNat h, Nat.shiftRight_eq_div_pow]
  split <;> omega

theorem f64InfMag_eq : f64InfMag = 2047 * 2 ^ 52 := rfl

theorem f64IsFinite_pack (h : mag < f64InfMag) : f64IsFinite (f64Pack neg mag) = true := by
  rw [f64InfMag_eq] at h
  rw [f64IsFinite, f64Expo_pack (by omega), bne_iff_ne]
  omega

theorem f64IsInf_pack : f64IsInf (f64Pack neg f64InfMag) = true := by cases neg <;> decide

/-- The magnitude of the pattern that rounding packs: the significand is in full length, or the exponent the least. -/
theorem f64Magnitude_pack {e : ℤ} {q : ℕ} (he : -1074 ≤ e) (hq : q ≤ 2 ^ 53) (hfull : e = -1074 ∨ 2 ^ 52 ≤ q)
    (hfin : magBits e q < f64InfMag) : f64Magnitude (f64Pack neg (magBits e q)) = q * 2 ^ e := by
  obtain ⟨k, rfl⟩ : ∃ k : ℕ, e = k - 1074 := ⟨(e + 1074).toNat, by omega⟩
  have hbits : magBits (k - 1074) q = k * 2 ^ 52 + q := by simp [magBits]
  rw [hbits, f64InfMag_eq] at hfin
  rw [hbits, f64Magnitude, f64Mant, f64Scale, f64Expo_pack (by omega), f64Frac_pack (by omega)]
  rcases Nat.lt_or_ge q (2 ^ 52) with hlt | hge
  · -- subnormal: the biased exponent is 0
    obtain rfl : k = 0 := by omega
    rw [if_pos (by omega), if_pos (by omega), show (0 * 2 ^ 52 + q) % 2 ^ 52 = q by omega]
    rfl
  · rw [if_neg (by omega), if_neg (by omega)]
    rcases Nat.eq_or_lt_of_le hq with rfl | hlt
    · -- the significand carries: half of it, at twice the scale
      rw [show (k * 2 ^ 52 + 2 ^ 53) / 2 ^ 52 = k + 2 by omega, show (k * 2 ^ 52 + 2 ^ 53) % 2 ^ 52 = 0 by omega,
        show ((k + 2 : ℕ) : ℤ) - 1075 = (k - 1074) + 1 by push_cast; ring, zpow_add_one₀ two_ne_zero]
      push_cast
      ring
    · rw [show (k * 2 ^ 52 + q) / 2 ^ 52 = k + 1 by omega, show 2 ^ 52 + (k * 2 ^ 52 + q) % 2 ^ 52 = q by omega,
        show ((k + 1 : ℕ) : ℤ) - 1075 = k - 1074 by push_cast; ring]

end Pack

/-! ### The numbers with 53 significant bits -/

/-- `v` has at most 53 significant bits, and its last place is not below the least of binary64. -/
def Dyadic (v : ℚ) : Prop := ∃ m s : ℤ, -1074 ≤ s ∧ |m| < 2 ^ 53 ∧ v = m * 2 ^ s

theorem Dyadic.neg {v : ℚ} (h : Dyadic v) : Dyadic (-v) := by
  obtain ⟨m, s, hs, hm, rfl⟩ := h
  exact ⟨-m, s, hs, by rwa [abs_neg], by push_cast; ring⟩

theorem Dyadic.signOf_mul {v : ℚ} (h : Dyadic v) (neg : Bool) : Dyadic (signOf neg * v) := by
  cases neg with
  | false => simpa [signOf] using h
  | true => simpa [signOf] using h.neg

theorem dyadic_f64Value (p : F64) : Dyadic (f64Value p) := by
  have hmag : Dyadic (f64Magnitude p) :=
    ⟨f64Mant p, f64Scale p, le_f64Scale p, by rw [Nat.abs_cast]; exact_mod_cast f64Mant_lt p, by simp [f64Magnitude]⟩
  rw [f64Value_eq]
  exact hmag.signOf_mul _

theorem dyadic_natCast {n : ℕ} (h : n < 2 ^ 53) : Dyadic n :=
  ⟨n, 0, by decide, by rw [Nat.abs_cast]; exact_mod_cast h, by simp⟩

/-- The least positive number of binary64. -/
theorem dyadic_least : Dyadic (2 ^ (-1074 : ℤ)) := ⟨1, -1074, le_rfl, by norm_num, by simp⟩

/-! ### Rounding -/

/-- A power of two by natural exponents, one of which is 0. -/
theorem two_zpow_eq (k : ℤ) : (2 : ℚ) ^ k = 2 ^ k.toNat / 2 ^ (-k).toNat := by
  rw [← zpow_natCast, ← zpow_natCast, ← zpow_sub₀ two_ne_zero, Int.toNat_sub_toNat_neg]

/-- A quotient is its floor and the remainder's part of the divisor. -/
theorem quotient_eq_floor_add (n : ℕ) {d : ℕ} (hd : 0 < d) : (n : ℚ) / d = (n / d : ℕ) + (n % d : ℕ) / d := by
  have hd' : (d : ℚ) ≠ 0 := by exact_mod_cast hd.ne'
  rw [div_eq_iff hd', add_mul, div_mul_cancel₀ _ hd']
  exact_mod_cast (Nat.div_add_mod' n d).symm

theorem remainder_lt_half_iff (n : ℕ) {d : ℕ} (hd : 0 < d) : ((n % d : ℕ) : ℚ) / d < 1 / 2 ↔ 2 * (n % d) < d := by
  rw [div_lt_div_iff₀ (by exact_mod_cast hd) two_pos, one_mul, mul_comm]
  exact_mod_cast Iff.rfl

theorem half_lt_remainder_iff (n : ℕ) {d : ℕ} (hd : 0 < d) : (1 / 2 : ℚ) < (n % d : ℕ) / d ↔ d < 2 * (n % d) := by
  rw [div_lt_div_iff₀ two_pos (by exact_mod_cast hd), one_mul, mul_comm]
  exact_mod_cast Iff.rfl

/-- The distance to the nearest integer is a half at most, and the even one is taken where it is a half. -/
theorem roundHalfEven_near (n : ℕ) {d : ℕ} (hd : 0 < d) :
    |(roundHalfEven n d : ℚ) - n / d| ≤ 1 / 2 ∧
      (|(roundHalfEven n d : ℚ) - n / d| = 1 / 2 → roundHalfEven n d % 2 = 0) := by
  have hr0 : (0 : ℚ) ≤ (n % d : ℕ) / d := by positivity
  have hr1 : ((n % d : ℕ) : ℚ) / d < 1 := by
    rw [div_lt_one (by exact_mod_cast hd)]
    exact_mod_cast Nat.mod_lt n hd
  simp only [roundHalfEven, ← remainder_lt_half_iff n hd, ← half_lt_remainder_iff n hd, quotient_eq_floor_add n hd]
  generalize ((n % d : ℕ) : ℚ) / d = r at hr0 hr1 ⊢
  rcases lt_trichotomy r (1 / 2) with hlt | rfl | hgt
  · rw [if_pos hlt, sub_add_cancel_left, abs_neg, abs_of_nonneg hr0]
    exact ⟨hlt.le, fun h => absurd h hlt.ne⟩
  · rw [if_neg (lt_irrefl _), if_neg (lt_irrefl _)]
    rcases Nat.mod_two_eq_zero_or_one (n / d) with heven | hodd
    · simp only [heven, add_zero, sub_add_cancel_left]
      exact ⟨by norm_num, fun _ => trivial⟩
    · simp only [hodd, Nat.cast_add_one, add_sub_add_left_eq_sub]
      exact ⟨by norm_num, fun _ => by omega⟩
  · rw [if_neg hgt.not_gt, if_pos hgt, Nat.cast_add_one, add_sub_add_left_eq_sub, abs_of_pos (by linarith)]
    exact ⟨by linarith, fun h => absurd h (by linarith)⟩

theorem twoPowLe_iff (k : ℤ) (n : ℕ) {d : ℕ} (hd : 0 < d) : twoPowLe k n d = true ↔ (2 : ℚ) ^ k ≤ n / d := by
  have hd' : (0 : ℚ) < d := by exact_mod_cast hd
  rw [twoPowLe, decide_eq_true_eq, two_zpow_eq, div_le_div_iff₀ (by positivity) hd', mul_comm d]
  exact_mod_cast Iff.rfl

/-- A quotient of two numbers lies within one power of two of the quotient of their leading bits. -/
theorem quotient_log2_bounds {n d : ℕ} (hn : 0 < n) (hd : 0 < d) :
    (2 : ℚ) ^ ((n.log2 : ℤ) - d.log2 - 1) ≤ n / d ∧ (n : ℚ) / d < 2 ^ ((n.log2 : ℤ) - d.log2 + 1) := by
  have hd' : (0 : ℚ) < d := by exact_mod_cast hd
  have hn1 : (2 : ℚ) ^ n.log2 ≤ n := by exact_mod_cast Nat.log2_self_le hn.ne'
  have hn2 : (n : ℚ) < 2 ^ (n.log2 + 1) := by exact_mod_cast Nat.lt_log2_self
  have hd1 : (2 : ℚ) ^ d.log2 ≤ d := by exact_mod_cast Nat.log2_self_le hd.ne'
  have hd2 : (d : ℚ) < 2 ^ (d.log2 + 1) := by exact_mod_cast Nat.lt_log2_self
  constructor
  · calc (2 : ℚ) ^ ((n.log2 : ℤ) - d.log2 - 1) = 2 ^ n.log2 / 2 ^ (d.log2 + 1) := by
          rw [← zpow_natCast, ← zpow_natCast, ← zpow_sub₀ two_ne_zero]; congr 1; push_cast; ring
      _ ≤ n / d := by gcongr
  · calc (n : ℚ) / d < 2 ^ (n.log2 + 1) / 2 ^ d.log2 := by gcongr
      _ = 2 ^ ((n.log2 : ℤ) - d.log2 + 1) := by
          rw [← zpow_natCast, ← zpow_natCast, ← zpow_sub₀ two_ne_zero]; congr 1; push_cast; ring

theorem floorLog2_bounds {n d : ℕ} (hn : 0 < n) (hd : 0 < d) :
    (2 : ℚ) ^ floorLog2 n d ≤ n / d ∧ (n : ℚ) / d < 2 ^ (floorLog2 n d + 1) := by
  obtain ⟨hlo, hhi⟩ := quotient_log2_bounds hn hd
  unfold floorLog2
  by_cases h : twoPowLe ((n.log2 : ℤ) - d.log2) n d = true
  · simp only [h, if_true]
    exact ⟨(twoPowLe_iff _ n hd).mp h, hhi⟩
  · simp only [h]
    exact ⟨hlo, by simpa using mt (twoPowLe_iff _ n hd).mpr h⟩

/-- `q` is the significand and `e` the scale that a magnitude `x` is rounded to: `q` is the integer nearest to `x` in
units of `2 ^ e`, and the unit is the last place of 53 significant bits, or the least of binary64. -/
structure RoundsTo (x : ℚ) (e : ℤ) (q : ℕ) : Prop where
  least : -1074 ≤ e
  near : |(q : ℚ) - x / 2 ^ e| ≤ 1 / 2
  even : |(q : ℚ) - x / 2 ^ e| = 1 / 2 → q % 2 = 0
  upper : x < 2 ^ 53 * 2 ^ e
  lower : e = -1074 ∨ 2 ^ 52 * 2 ^ e ≤ x

/-- The pattern `r` is a magnitude `x` rounded, with a sign, or infinity where the rounded magnitude is too great. -/
def Rounded (neg : Bool) (x : ℚ) (r : F64) : Prop :=
  ∃ e q, RoundsTo x e q ∧ r = f64Pack neg (min (magBits e q) f64InfMag)

theorem roundsTo_zero : RoundsTo 0 (-1074) 0 where
  least := le_rfl
  near := by simp
  even := fun _ => rfl
  upper := by positivity
  lower := .inl rfl

/-- The scale of a positive quotient keeps 53 significant bits of it where that is possible. -/
theorem roundScale_bounds {n d : ℕ} (hn : 0 < n) (hd : 0 < d) :
    (n : ℚ) / d < 2 ^ 53 * 2 ^ roundScale n d ∧
      (roundScale n d = -1074 ∨ 2 ^ 52 * 2 ^ roundScale n d ≤ (n : ℚ) / d) := by
  obtain ⟨hlo, hhi⟩ := floorLog2_bounds hn hd
  have hle : floorLog2 n d - 52 ≤ roundScale n d := le_max_left ..
  constructor
  · calc (n : ℚ) / d < 2 ^ (floorLog2 n d + 1) := hhi
      _ ≤ 2 ^ (53 + roundScale n d) := zpow_le_zpow_right₀ one_le_two (by omega)
      _ = 2 ^ 53 * 2 ^ roundScale n d := by rw [zpow_add₀ two_ne_zero]; rfl
  · rcases le_total (floorLog2 n d - 52) (-1074) with h | h
    · exact .inl (max_eq_right h)
    · refine .inr (le_trans (le_of_eq ?_) hlo)
      rw [roundScale, max_eq_left h, zpow_sub₀ two_ne_zero]
      norm_cast
      rw [mul_div_cancel₀]
      norm_num

/-- The model's rounding of a quotient. -/
theorem f64OfQuot_rounded (neg : Bool) (n : ℕ) {d : ℕ} (hd : 0 < d) : Rounded neg (n / d) (f64OfQuot neg n d) := by
  rcases Nat.eq_zero_or_pos n with rfl | hn
  · exact ⟨-1074, 0, by simpa using roundsTo_zero, rfl⟩
  · obtain ⟨hupper, hlower⟩ := roundScale_bounds hn hd
    have hquot : ((n * 2 ^ (-roundScale n d).toNat : ℕ) : ℚ) / (d * 2 ^ (roundScale n d).toNat : ℕ) =
        n / d / 2 ^ roundScale n d := by
      rw [two_zpow_eq]
      push_cast
      field_simp
    obtain ⟨hnear, heven⟩ := roundHalfEven_near (n * 2 ^ (-roundScale n d).toNat)
      (d := d * 2 ^ (roundScale n d).toNat) (by positivity)
    rw [hquot] at hnear heven
    refine ⟨roundScale n d, _, ⟨le_max_right .., hnear, heven, hupper, hlower⟩, ?_⟩
    rw [f64OfQuot, if_neg hn.ne', min_def_lt]
    rfl

/-! ### A rounded magnitude is the nearest number -/

/-- No integer is nearer than the nearest one, and another one that is as near leaves it at a tie. -/
theorem nearest_int {y : ℚ} {q : ℕ} (hnear : |(q : ℚ) - y| ≤ 1 / 2) (j : ℤ) :
    |(q : ℚ) - y| ≤ |j - y| ∧ (|(q : ℚ) - y| = |j - y| → j ≠ q → |(q : ℚ) - y| = 1 / 2) := by
  rcases eq_or_ne j q with rfl | hne
  · exact ⟨le_rfl, fun _ h => absurd rfl h⟩
  · have hgap : (1 : ℚ) ≤ |(j : ℚ) - q| := by exact_mod_cast Int.one_le_abs (sub_ne_zero.mpr hne)
    have htri : |(j : ℚ) - q| ≤ |j - y| + |q - y| := by rw [abs_sub_comm (q : ℚ) y]; exact abs_sub_le ..
    exact ⟨by linarith, fun h _ => by linarith⟩

/-- A distance in units of a last place. -/
theorem abs_mul_two_zpow_sub (j x : ℚ) (e : ℤ) : |j * 2 ^ e - x| = |j - x / 2 ^ e| * 2 ^ e := by
  have he : (0 : ℚ) < 2 ^ e := by positivity
  rw [← abs_of_pos he, ← abs_mul, sub_mul, abs_of_pos he, div_mul_cancel₀ _ he.ne']

/-- Half a last place past the greatest finite number, in units of that last place. -/
theorem overflow_eq : (2 : ℚ) ^ 1024 - 2 ^ 970 = (2 ^ 53 - 1 / 2) * 2 ^ (971 : ℤ) := by
  have h1024 : (2 : ℚ) ^ 1024 = 2 ^ 53 * 2 ^ 971 := by rw [← pow_add]
  have h971 : (2 : ℚ) ^ 971 = 2 * 2 ^ 970 := pow_succ' ..
  rw [show (971 : ℤ) = (971 : ℕ) from rfl, zpow_natCast, h1024, h971]
  generalize (2 : ℚ) ^ 970 = y
  ring

theorem two_pow_le_overflow : (2 : ℚ) ^ (1023 : ℤ) ≤ 2 ^ 1024 - 2 ^ 970 := by
  rw [overflow_eq, show (1023 : ℤ) = 52 + 971 from rfl, zpow_add₀ two_ne_zero]
  gcongr
  norm_num

namespace RoundsTo

variable {x : ℚ} {e : ℤ} {q : ℕ}

/-- Among the multiples of its last place, and so among the numbers with 53 significant bits. -/
theorem nearest (h : RoundsTo x e q) {v : ℚ} (hv : Dyadic v) :
    |q * 2 ^ e - x| ≤ |v - x| ∧ (|q * 2 ^ e - x| = |v - x| → v ≠ q * 2 ^ e → q % 2 = 0) := by
  have he : (0 : ℚ) < 2 ^ e := by positivity
  obtain ⟨m, s, hs, hm, rfl⟩ := hv
  rcases le_or_gt e s with hes | hse
  · -- a multiple of the last place
    have hj : (m : ℚ) * 2 ^ s = ((m * 2 ^ (s - e).toNat : ℤ) : ℚ) * 2 ^ e := by
      push_cast
      rw [mul_assoc, ← zpow_natCast, ← zpow_add₀ two_ne_zero]
      congr 2
      omega
    generalize m * 2 ^ (s - e).toNat = j at hj
    rw [hj, abs_mul_two_zpow_sub, abs_mul_two_zpow_sub]
    obtain ⟨hle, htie⟩ := nearest_int h.near j
    refine ⟨mul_le_mul_of_nonneg_right hle he.le, fun heq hne => h.even ?_⟩
    exact htie (mul_right_cancel₀ he.ne' heq) fun hjq => hne (by rw [hjq, Int.cast_natCast])
  · -- a smaller number, of which the least significand in full length is nearer to `x`
    have hlower : 2 ^ 52 * 2 ^ e ≤ x := h.lower.resolve_left (by omega)
    have hv : (m : ℚ) * 2 ^ s < 2 ^ 52 * 2 ^ e := by
      have hm' : (m : ℚ) < 2 ^ 53 := by exact_mod_cast (abs_lt.mp hm).2
      calc (m : ℚ) * 2 ^ s < 2 ^ 53 * 2 ^ s := by gcongr
        _ ≤ 2 ^ 53 * 2 ^ (e - 1) := by gcongr <;> [norm_num; omega]
        _ = 2 ^ 52 * 2 ^ e := by rw [zpow_sub_one₀ two_ne_zero]; ring
    have hfull : |(q : ℚ) * 2 ^ e - x| ≤ |2 ^ 52 * 2 ^ e - x| := by
      rw [abs_mul_two_zpow_sub, abs_mul_two_zpow_sub]
      exact mul_le_mul_of_nonneg_right (by exact_mod_cast (nearest_int h.near (2 ^ 52 : ℕ)).1) he.le
    rw [abs_of_nonpos (by linarith : 2 ^ 52 * 2 ^ e - x ≤ 0)] at hfull
    rw [abs_of_neg (by linarith : (m : ℚ) * 2 ^ s - x < 0)]
    exact ⟨by linarith, fun heq => by linarith⟩

/-- A number with 53 significant bits is rounded to itself. -/
theorem eq_of_dyadic (h : RoundsTo x e q) (hx : Dyadic x) : (q : ℚ) * 2 ^ e = x := by
  obtain ⟨hle, -⟩ := h.nearest hx
  rw [sub_self, abs_zero] at hle
  exact sub_eq_zero.mp (abs_nonpos_iff.mp hle)

/-- A magnitude that reaches the least positive number is not rounded to 0. -/
theorem pos_of_le (h : RoundsTo x e q) (hx : 2 ^ (-1074 : ℤ) ≤ x) : 0 < q := by
  have hleast : (0 : ℚ) < 2 ^ (-1074 : ℤ) := by positivity
  obtain ⟨hle, -⟩ := h.nearest dyadic_least
  rw [Nat.pos_iff_ne_zero]
  rintro rfl
  rw [Nat.cast_zero, zero_mul, zero_sub, abs_neg, abs_of_nonneg (by linarith), abs_of_nonpos (by linarith)] at hle
  linarith

/-- The significand is at most one place longer than 53 bits. -/
theorem le_two_pow (h : RoundsTo x e q) : q ≤ 2 ^ 53 := by
  have he : (0 : ℚ) < 2 ^ e := by positivity
  have hx : x / 2 ^ e < 2 ^ 53 := (div_lt_iff₀ he).mpr h.upper
  have hq : (q : ℚ) < 2 ^ 53 + 1 := by linarith [(abs_le.mp h.near).2]
  exact Nat.lt_succ_iff.mp (by exact_mod_cast hq)

theorem full_length (h : RoundsTo x e q) : e = -1074 ∨ 2 ^ 52 ≤ q := by
  refine h.lower.imp_right fun hlower => ?_
  have he : (0 : ℚ) < 2 ^ e := by positivity
  have hx : 2 ^ 52 ≤ x / 2 ^ e := (le_div_iff₀ he).mpr hlower
  have hq : (2 : ℚ) ^ 52 < q + 1 := by linarith [(abs_le.mp h.near).1]
  exact Nat.lt_succ_iff.mp (by exact_mod_cast hq)

/-- The scale of a magnitude is determined. -/
theorem scale_le {e' : ℤ} {q' : ℕ} (h : RoundsTo x e q) (h' : RoundsTo x e' q') : e' ≤ e := by
  by_contra! hlt
  have hlower : 2 ^ 52 * 2 ^ e' ≤ x := h'.lower.resolve_left (by linarith [h.least])
  have hstep : (2 : ℚ) ^ 53 * 2 ^ e ≤ 2 ^ 52 * 2 ^ e' := by
    calc (2 : ℚ) ^ 53 * 2 ^ e = 2 ^ 52 * 2 ^ (e + 1) := by rw [zpow_add_one₀ two_ne_zero]; ring
      _ ≤ 2 ^ 52 * 2 ^ e' := by gcongr <;> [norm_num; omega]
  linarith [h.upper]

/-- A magnitude is rounded in one way only. -/
theorem unique {e' : ℤ} {q' : ℕ} (h : RoundsTo x e q) (h' : RoundsTo x e' q') : e = e' ∧ q = q' := by
  obtain rfl : e = e' := le_antisymm (h'.scale_le h) (h.scale_le h')
  refine ⟨rfl, ?_⟩
  by_contra hne
  obtain ⟨hle, htie⟩ := nearest_int h.near q'
  obtain ⟨hle', htie'⟩ := nearest_int h'.near q
  rw [Int.cast_natCast] at hle htie hle' htie'
  have heq := le_antisymm hle hle'
  have heven := h.even (htie heq (by exact_mod_cast Ne.symm hne))
  have heven' := h'.even (htie' heq.symm (by exact_mod_cast hne))
  have hgap : |(q : ℚ) - q'| ≤ 1 := by
    have htri := abs_sub_le (q : ℚ) (x / 2 ^ e) q'
    rw [abs_sub_comm (x / 2 ^ e)] at htri
    linarith [h.near, h'.near]
  have hgap' : |(q : ℤ) - q'| ≤ 1 := by exact_mod_cast hgap
  rw [abs_le] at hgap'
  omega

/-! ### Overflow -/

/-- The rounded magnitude is finite exactly below half a last place past the greatest finite number. -/
theorem magBits_lt_iff (h : RoundsTo x e q) : magBits e q < f64InfMag ↔ x < 2 ^ 1024 - 2 ^ 970 := by
  have hq := h.le_two_pow
  have hfull := h.full_length
  have hleast := h.least
  rw [magBits, f64InfMag_eq]
  rcases lt_trichotomy e 971 with hlt | rfl | hgt
  · refine iff_of_true (by omega) ?_
    calc x < 2 ^ 53 * 2 ^ e := h.upper
      _ ≤ 2 ^ 53 * 2 ^ (970 : ℤ) := by gcongr <;> [norm_num; omega]
      _ = 2 ^ (1023 : ℤ) := by rw [show (1023 : ℤ) = 53 + 970 from rfl, zpow_add₀ two_ne_zero]; rfl
      _ ≤ 2 ^ 1024 - 2 ^ 970 := two_pow_le_overflow
  · have he : (0 : ℚ) < 2 ^ (971 : ℤ) := by positivity
    obtain ⟨hlo, hhi⟩ := abs_le.mp h.near
    rw [overflow_eq, ← div_lt_iff₀ he, show (971 + 1074 : ℤ).toNat * 2 ^ 52 + q < 2047 * 2 ^ 52 ↔ q < 2 ^ 53 by
      rw [show (971 + 1074 : ℤ).toNat = 2045 from rfl]; omega]
    constructor
    · intro hlt
      have hq' : (q : ℚ) ≤ 2 ^ 53 - 1 := by
        rw [le_sub_iff_add_le]; exact_mod_cast hlt
      refine lt_of_le_of_ne (by linarith) fun heq => ?_
      have hq1 : (q : ℚ) = 2 ^ 53 - 1 := le_antisymm hq' (by linarith)
      have heven := h.even (by rw [heq, hq1]; norm_num)
      have hodd : q + 1 = 2 ^ 53 := by exact_mod_cast eq_sub_iff_add_eq.mp hq1
      omega
    · intro hlt
      have hq' : (q : ℚ) < 2 ^ 53 := by linarith
      exact_mod_cast hq'
  · refine iff_of_false (by omega) (not_lt.mpr ?_)
    calc (2 : ℚ) ^ 1024 - 2 ^ 970 ≤ 2 ^ 1024 := sub_le_self _ (by positivity)
      _ = 2 ^ 52 * 2 ^ (972 : ℤ) := by
        rw [show (972 : ℤ) = (972 : ℕ) from rfl, zpow_natCast, ← pow_add]
      _ ≤ 2 ^ 52 * 2 ^ e := by gcongr <;> [norm_num; omega]
      _ ≤ x := h.lower.resolve_left (by omega)

end RoundsTo

/-! ### A rounded pattern -/

theorem min_infMag_lt (m : ℕ) : min m f64InfMag < 2 ^ 63 :=
  (min_le_right ..).trans_lt (by rw [f64InfMag_eq]; norm_num)

namespace Rounded

variable {neg : Bool} {x : ℚ} {r : F64}

/-- Rounding keeps the sign, of infinity and of 0 too. -/
theorem neg_eq (h : Rounded neg x r) : f64Neg r = neg := by
  obtain ⟨e, q, -, rfl⟩ := h
  exact f64Neg_pack (min_infMag_lt _)

theorem finite (h : Rounded neg x r) (hx : x < 2 ^ 1024 - 2 ^ 970) : f64IsFinite r = true := by
  obtain ⟨e, q, hround, rfl⟩ := h
  have hfin := hround.magBits_lt_iff.mpr hx
  rw [min_eq_left hfin.le]
  exact f64IsFinite_pack hfin

/-- A finite rounded pattern's number is the rounded magnitude with the sign. -/
theorem exists_value (h : Rounded neg x r) (hx : x < 2 ^ 1024 - 2 ^ 970) :
    ∃ e q, RoundsTo x e q ∧ f64Value r = signOf neg * (q * 2 ^ e) ∧ f64Frac r % 2 = q % 2 := by
  have hneg := h.neg_eq
  obtain ⟨e, q, hround, rfl⟩ := h
  have hfin := hround.magBits_lt_iff.mpr hx
  rw [min_eq_left hfin.le] at hneg ⊢
  refine ⟨e, q, hround, ?_, ?_⟩
  · rw [f64Value_eq, hneg, f64Magnitude_pack hround.least hround.le_two_pow hround.full_length hfin]
  · rw [f64Frac_pack (hfin.trans (by rw [f64InfMag_eq]; norm_num)), magBits]
    omega

/-- Below overflow, the pattern is the finite one nearest to the number with the sign. -/
theorem nearestEven (h : Rounded neg x r) (hx : x < 2 ^ 1024 - 2 ^ 970) : NearestEven (signOf neg * x) r := by
  refine ⟨h.finite hx, fun p _ => ?_⟩
  obtain ⟨e, q, hround, hvalue, hfrac⟩ := h.exists_value hx
  obtain ⟨hle, htie⟩ := hround.nearest ((dyadic_f64Value p).signOf_mul neg)
  have hr : signOf neg * f64Value r = q * 2 ^ e := by rw [hvalue, ← mul_assoc, signOf_mul_self, one_mul]
  rw [abs_signOf_mul_sub, abs_signOf_mul_sub, hr, hfrac]
  refine ⟨hle, fun heq hne => htie heq fun hp => hne ?_⟩
  rw [hvalue, ← hp, ← mul_assoc, signOf_mul_self, one_mul]

theorem isInf (h : Rounded neg x r) (hx : 2 ^ 1024 - 2 ^ 970 ≤ x) : f64IsInf r = true := by
  obtain ⟨e, q, hround, rfl⟩ := h
  rw [min_eq_right (not_lt.mp (mt hround.magBits_lt_iff.mp (not_lt.mpr hx)))]
  exact f64IsInf_pack

/-- The pattern is the number with the sign rounded to nearest, ties to even. -/
theorem correctlyRounded (h : Rounded neg x r) (hx : 0 ≤ x) : CorrectlyRounded (signOf neg * x) r := by
  rw [CorrectlyRounded, abs_signOf_mul, abs_of_nonneg hx]
  exact ⟨h.nearestEven, h.isInf⟩

/-- A magnitude with 53 significant bits is kept exactly. -/
theorem value_eq (h : Rounded neg x r) (hdyadic : Dyadic x) (hx : x < 2 ^ 1024 - 2 ^ 970) :
    f64Value r = signOf neg * x := by
  obtain ⟨e, q, hround, hvalue, -⟩ := h.exists_value hx
  rw [hvalue, hround.eq_of_dyadic hdyadic]

/-- The magnitude 0 is rounded to 0 with the sign. -/
theorem eq_of_zero (h : Rounded neg 0 r) : r = f64Pack neg 0 := by
  obtain ⟨e, q, hround, rfl⟩ := h
  obtain ⟨rfl, rfl⟩ := hround.unique roundsTo_zero
  rfl

/-- A magnitude that reaches the least positive number becomes neither +0 nor -0. -/
theorem ne_zero (h : Rounded neg x r) (hx : 2 ^ (-1074 : ℤ) ≤ x) : r ≠ 0 ∧ r ≠ 0x8000000000000000 := by
  obtain ⟨e, q, hround, rfl⟩ := h
  have hq := hround.pos_of_le hx
  have hmag : 0 < min (magBits e q) f64InfMag := lt_min (by unfold magBits; omega) (by rw [f64InfMag_eq]; norm_num)
  have hlt := min_infMag_lt (magBits e q)
  have hnat := f64Pack_toNat (neg := neg) hlt
  constructor <;> intro heq <;> rw [heq] at hnat <;> cases neg <;> simp at hnat <;> omega

/-- A pattern is determined by what its magnitude is rounded to. -/
theorem eq_of_roundsTo {e : ℤ} {q : ℕ} (h : Rounded neg x r) (hround : RoundsTo x e q) :
    r = f64Pack neg (min (magBits e q) f64InfMag) := by
  obtain ⟨e', q', hround', rfl⟩ := h
  obtain ⟨rfl, rfl⟩ := hround.unique hround'
  rfl

end Rounded

end Sys2Proof.Proofs
end

section
/-! SUPPORT. The operations of 00_scope.md R10 as roundings of exact results, and with them the numbers that the scalers
compute (43_scaler.md R125, R127). -/

namespace Sys2Proof.Proofs

open Sys2Proof.Machine Sys2Proof.Config Sys2Proof.Safety

/-! ### Each operation rounds its exact result -/

theorem f64IsNan_of_finite {p : F64} (h : f64IsFinite p = true) : f64IsNan p = false := by
  have hexpo : f64Expo p ≠ 2047 := by simpa [f64IsFinite] using h
  simp [f64IsNan, hexpo]

theorem f64IsInf_of_finite {p : F64} (h : f64IsFinite p = true) : f64IsInf p = false := by
  have hexpo : f64Expo p ≠ 2047 := by simpa [f64IsFinite] using h
  simp [f64IsInf, hexpo]

theorem f64OfInt_rounded (i : ℤ) : Rounded (decide (i < 0)) |(i : ℚ)| (f64OfInt i) := by
  have h := f64OfQuot_rounded (decide (i < 0)) i.natAbs one_pos
  rwa [Nat.cast_one, div_one, Nat.cast_natAbs, Int.cast_abs] at h

theorem f64Mul_rounded {a b : F64} (ha : f64IsFinite a = true) (hb : f64IsFinite b = true) :
    Rounded (f64Neg a != f64Neg b) |f64Value a * f64Value b| (f64Mul a b) := by
  have hexact : |f64Value a * f64Value b| =
      (f64Mant a * f64Mant b * 2 ^ (f64Scale a + f64Scale b).toNat : ℕ) /
        (2 ^ (-(f64Scale a + f64Scale b)).toNat : ℕ) := by
    rw [abs_mul, abs_f64Value, abs_f64Value, f64Magnitude, f64Magnitude, mul_mul_mul_comm, ← zpow_add₀ two_ne_zero,
      two_zpow_eq]
    push_cast
    ring
  rw [hexact, f64Mul]
  simp only [f64IsNan_of_finite, f64IsInf_of_finite, ha, hb, Bool.or_self, Bool.false_eq_true, if_false]
  exact f64OfQuot_rounded _ _ (by positivity)

theorem f64Div_rounded {a b : F64} (ha : f64IsFinite a = true) (hb : f64IsFinite b = true) (hb0 : f64Value b ≠ 0) :
    Rounded (f64Neg a != f64Neg b) |f64Value a / f64Value b| (f64Div a b) := by
  have hmant : f64Mant b ≠ 0 := by
    rintro h
    exact hb0 (by rw [f64Value_eq, f64Magnitude, h, Nat.cast_zero, zero_mul, mul_zero])
  have hexact : |f64Value a / f64Value b| =
      (f64Mant a * 2 ^ (f64Scale a - f64Scale b).toNat : ℕ) /
        (f64Mant b * 2 ^ (-(f64Scale a - f64Scale b)).toNat : ℕ) := by
    rw [abs_div, abs_f64Value, abs_f64Value, f64Magnitude, f64Magnitude, mul_div_mul_comm, ← zpow_sub₀ two_ne_zero,
      two_zpow_eq, div_mul_div_comm]
    push_cast
    rfl
  rw [hexact, f64Div]
  simp only [f64IsNan_of_finite, f64IsInf_of_finite, ha, hb, hmant, Bool.or_self, Bool.false_eq_true, if_false]
  exact f64OfQuot_rounded _ _ (Nat.mul_pos (Nat.pos_of_ne_zero hmant) (by positivity))

/-- Settles O37: the product's sign is the product of the signs, and its magnitude is rounded once. -/
theorem productIsCorrectlyRounded : Obligations.ProductIsCorrectlyRounded := by
  intro a b ha hb
  have h := f64Mul_rounded ha hb
  refine ⟨?_, h.neg_eq⟩
  have hexact : f64Value a * f64Value b = signOf (f64Neg a != f64Neg b) * |f64Value a * f64Value b| := by
    rw [abs_mul, abs_f64Value, abs_f64Value, f64Value_eq a, f64Value_eq b, signOf_bne, mul_mul_mul_comm]
  rw [hexact]
  exact h.correctlyRounded (abs_nonneg _)

/-- Settles O38: as for the product. -/
theorem quotientIsCorrectlyRounded : Obligations.QuotientIsCorrectlyRounded := by
  intro a b ha hb hb0
  have h := f64Div_rounded ha hb hb0
  refine ⟨?_, h.neg_eq⟩
  have hinv : (signOf (f64Neg b))⁻¹ = signOf (f64Neg b) := inv_eq_of_mul_eq_one_left (signOf_mul_self _)
  have hexact : f64Value a / f64Value b = signOf (f64Neg a != f64Neg b) * |f64Value a / f64Value b| := by
    rw [abs_div, abs_f64Value, abs_f64Value, f64Value_eq a, f64Value_eq b, signOf_bne, mul_div_mul_comm,
      div_eq_mul_inv (signOf _), hinv]
  rw [hexact]
  exact h.correctlyRounded (abs_nonneg _)

/-! ### Integers -/

/-- A magnitude up to `2 ^ 1023` does not overflow. -/
theorem lt_overflow {x : ℚ} (h : x < 2 ^ (1023 : ℤ)) : x < 2 ^ 1024 - 2 ^ 970 :=
  h.trans_le two_pow_le_overflow

theorem natAbs_lt_iff {i : ℤ} {n : ℕ} : i.natAbs < n ↔ |(i : ℚ)| < n := by
  rw [← Int.cast_abs, Int.abs_eq_natAbs]
  norm_cast

/-- Settles O36: an integer below 2^53 has 53 significant bits at most, and so it is its own rounding. -/
theorem integersConvertExactly : Obligations.IntegersConvertExactly := by
  intro i hi
  have h := f64OfInt_rounded i
  have hlt : |(i : ℚ)| < 2 ^ 53 := by exact_mod_cast natAbs_lt_iff.mp hi
  have hover := lt_overflow (hlt.trans_le (by rw [← zpow_natCast]; exact zpow_le_zpow_right₀ one_le_two (by norm_num)))
  have hdyadic : Dyadic |(i : ℚ)| := by
    rw [← Int.cast_abs, Int.abs_eq_natAbs, Int.cast_natCast]
    exact dyadic_natCast hi
  refine ⟨h.finite hover, ?_, by rw [h.neg_eq, decide_eq_true_eq]⟩
  rw [h.value_eq hdyadic hover, signOf]
  rcases lt_or_ge i 0 with hneg | hpos
  · simp [hneg, abs_of_neg (show (i : ℚ) < 0 by exact_mod_cast hneg)]
  · simp [hpos.not_gt, abs_of_nonneg (show (0 : ℚ) ≤ i by exact_mod_cast hpos)]

/-- What O36 says of the scalers' operands: the samples are far below 2^53. -/
theorem f64OfInt_exact {i : ℤ} (h : |i| ≤ 2 ^ 15) : f64IsFinite (f64OfInt i) = true ∧ f64Value (f64OfInt i) = i := by
  have hlt : i.natAbs < 2 ^ 53 := by rw [abs_le] at h; omega
  obtain ⟨hfin, hvalue, -⟩ := integersConvertExactly i hlt
  exact ⟨hfin, hvalue⟩

theorem one_le_abs_intCast {i : ℤ} (h : i ≠ 0) : (1 : ℚ) ≤ |(i : ℚ)| := by exact_mod_cast Int.one_le_abs h

theorem abs_intCast_le {i : ℤ} (h : |i| ≤ 2 ^ 15) : |(i : ℚ)| ≤ 2 ^ 15 := by exact_mod_cast h

/-! ### The current (43_scaler.md R127) -/

/-- Every finite number is below 2^1024. -/
theorem f64Magnitude_lt {p : F64} (h : f64IsFinite p = true) : f64Magnitude p < 2 ^ (1024 : ℤ) := by
  have hexpo : f64Expo p ≠ 2047 := by simpa [f64IsFinite] using h
  have hlt : f64Expo p < 2048 := (p.extractLsb' 52 11).isLt
  have hscale : f64Scale p ≤ 971 := by unfold f64Scale; split <;> omega
  calc f64Magnitude p < 2 ^ 53 * 2 ^ f64Scale p := by
        unfold f64Magnitude
        gcongr
        exact_mod_cast f64Mant_lt p
    _ ≤ 2 ^ 53 * 2 ^ (971 : ℤ) := by gcongr; norm_num
    _ = 2 ^ (1024 : ℤ) := by rw [show (1024 : ℤ) = 53 + 971 from rfl, zpow_add₀ two_ne_zero]; rfl

section Current

variable {r : F64} (hr : shuntROk r = true)

include hr

theorem shuntR_value_bounds : 2 ^ (-1000 : ℤ) ≤ f64Value r ∧ f64Value r < 2 ^ (1024 : ℤ) := by
  obtain ⟨hfin, hlo⟩ := (shuntROk_iff r).mp hr
  refine ⟨?_, ((le_abs_self _).trans_eq (abs_f64Value r)).trans_lt (f64Magnitude_lt hfin)⟩
  rwa [show (-1000 : ℤ) = -(1000 : ℕ) from rfl, zpow_neg, zpow_natCast, ← one_div]

theorem shuntR_neg : f64Neg r = false := by
  simp only [shuntROk, Bool.and_eq_true, Bool.not_eq_true'] at hr
  obtain ⟨⟨-, hneg⟩, -⟩ := hr
  exact hneg

/-- The current is the rounded quotient of the sample by SHUNT_R. -/
theorem current_rounded {s : ℤ} (hs : |s| ≤ 2 ^ 15) :
    Rounded (decide (s < 0)) (|(s : ℚ)| / f64Value r) (current r s) := by
  obtain ⟨hlo, -⟩ := shuntR_value_bounds hr
  have hpos : 0 < f64Value r := lt_of_lt_of_le (by positivity) hlo
  obtain ⟨hfin, hvalue⟩ := f64OfInt_exact hs
  have h := f64Div_rounded hfin ((shuntROk_iff r).mp hr).1 hpos.ne'
  rwa [(f64OfInt_rounded s).neg_eq, shuntR_neg hr, Bool.bne_false, hvalue, abs_div, abs_of_pos hpos] at h

theorem current_zero : current r 0 = 0 := by
  have h := current_rounded hr (s := 0) (by norm_num)
  rw [Int.cast_zero, abs_zero, zero_div] at h
  exact h.eq_of_zero

/-- The current of a sample other than 0 lies between the least positive number and overflow. -/
theorem current_bounds {s : ℤ} (hs : |s| ≤ 2 ^ 15) (hs0 : s ≠ 0) :
    2 ^ (-1074 : ℤ) ≤ |(s : ℚ)| / f64Value r ∧ |(s : ℚ)| / f64Value r < 2 ^ (1023 : ℤ) := by
  obtain ⟨hlo, hhi⟩ := shuntR_value_bounds hr
  have hpos : 0 < f64Value r := lt_of_lt_of_le (by positivity) hlo
  have hone := one_le_abs_intCast hs0
  constructor
  · calc (2 : ℚ) ^ (-1074 : ℤ) ≤ 2 ^ (-1024 : ℤ) := zpow_le_zpow_right₀ one_le_two (by norm_num)
      _ = 1 / 2 ^ (1024 : ℤ) := by rw [zpow_neg, one_div]
      _ ≤ |(s : ℚ)| / f64Value r := by gcongr
  · calc |(s : ℚ)| / f64Value r ≤ 2 ^ 15 / 2 ^ (-1000 : ℤ) := by gcongr; exact abs_intCast_le hs
      _ = 2 ^ (1015 : ℤ) := by
        rw [show (1015 : ℤ) = 15 - -1000 from rfl, zpow_sub₀ two_ne_zero]; rfl
      _ < 2 ^ (1023 : ℤ) := zpow_lt_zpow_right₀ one_lt_two (by norm_num)

end Current

/-- Settles O39: 0 has the current +0, and any other sample's is too great for 0 and too small for overflow. -/
theorem currentIsFinite : Obligations.CurrentIsFinite := by
  intro r s hr hlo hhi
  rcases eq_or_ne s 0 with rfl | hs0
  · rw [current_zero hr]
    exact ⟨by decide, iff_of_true rfl rfl, by decide⟩
  · have hs : |s| ≤ 2 ^ 15 := abs_le.mpr (by omega)
    have h := current_rounded hr hs
    obtain ⟨hleast, hover⟩ := current_bounds hr hs hs0
    obtain ⟨hne, hne'⟩ := h.ne_zero hleast
    exact ⟨h.finite (lt_overflow hover), iff_of_false hne hs0, hne'⟩

/-! ### The bus voltage (43_scaler.md R125) -/

theorem mvToV_finite : f64IsFinite mvToV = true := by decide

theorem mvToV_neg : f64Neg mvToV = false := by decide

/-- The constant nearest 0.001 has the exponent of 2^-10. -/
theorem mvToV_value_bounds : 2 ^ (-10 : ℤ) ≤ f64Value mvToV ∧ f64Value mvToV < 2 ^ (-9 : ℤ) := by
  have hexpo : f64Expo mvToV = 1013 := by decide
  constructor
  · exact (two_zpow_le_f64Value_iff (e := 1013) mvToV_neg (by norm_num)).mpr hexpo.ge
  · exact not_le.mp (mt (two_zpow_le_f64Value_iff (e := 1014) mvToV_neg (by norm_num)).mp (by omega))

/-- The bus voltage is the rounded product of the scaled value by the constant. -/
theorem busVolts_rounded {m : ℤ} (hm : |m| ≤ 2 ^ 15) :
    Rounded (decide (m < 0)) (|(m : ℚ)| * f64Value mvToV) (busVolts m) := by
  obtain ⟨hlo, -⟩ := mvToV_value_bounds
  have hpos : 0 < f64Value mvToV := lt_of_lt_of_le (by positivity) hlo
  obtain ⟨hfin, hvalue⟩ := f64OfInt_exact hm
  have h := f64Mul_rounded hfin mvToV_finite
  rwa [(f64OfInt_rounded m).neg_eq, mvToV_neg, Bool.bne_false, hvalue, abs_mul, abs_of_pos hpos] at h

theorem busVolts_zero : busVolts 0 = 0 := by
  have h := busVolts_rounded (m := 0) (by norm_num)
  rw [Int.cast_zero, abs_zero, zero_mul] at h
  exact h.eq_of_zero

theorem busVolts_bounds {m : ℤ} (hm : |m| ≤ 2 ^ 15) (hm0 : m ≠ 0) :
    2 ^ (-1074 : ℤ) ≤ |(m : ℚ)| * f64Value mvToV ∧ |(m : ℚ)| * f64Value mvToV < 2 ^ (1023 : ℤ) := by
  obtain ⟨hlo, hhi⟩ := mvToV_value_bounds
  have hone := one_le_abs_intCast hm0
  constructor
  · calc (2 : ℚ) ^ (-1074 : ℤ) ≤ 1 * 2 ^ (-10 : ℤ) := by
          rw [one_mul]; exact zpow_le_zpow_right₀ one_le_two (by norm_num)
      _ ≤ |(m : ℚ)| * f64Value mvToV := by gcongr
  · calc |(m : ℚ)| * f64Value mvToV ≤ 2 ^ 15 * 2 ^ (-9 : ℤ) := by gcongr; exact abs_intCast_le hm
      _ = 2 ^ (6 : ℤ) := by norm_num
      _ < 2 ^ (1023 : ℤ) := zpow_lt_zpow_right₀ one_lt_two (by norm_num)

/-- Settles O41: as for the current. -/
theorem busVoltsAreFinite : Obligations.BusVoltsAreFinite := by
  intro v hlo hhi
  have hm : |busScale v| ≤ 2 ^ 15 := by rw [busScale_eq, abs_le]; omega
  generalize busScale v = m at hm
  rcases eq_or_ne m 0 with rfl | hm0
  · rw [busVolts_zero]
    exact ⟨by decide, iff_of_true rfl rfl, by decide⟩
  · have h := busVolts_rounded hm
    obtain ⟨hleast, hover⟩ := busVolts_bounds hm hm0
    obtain ⟨hne, hne'⟩ := h.ne_zero hleast
    exact ⟨h.finite (lt_overflow hover), iff_of_false hne hm0, hne'⟩

/-! ### The default shunt (43_scaler.md R127) -/

theorem shuntROk_default : shuntROk defaultParams.shuntR = true := by decide

/-- binary64(0.1) is a little more than 0.1. -/
theorem defaultShuntR_value : f64Value defaultParams.shuntR = 7205759403792794 / 2 ^ 56 := by
  rw [f64Value, show f64Neg defaultParams.shuntR = false by decide,
    show f64Mant defaultParams.shuntR = 7205759403792794 by decide, show f64Scale defaultParams.shuntR = -56 by decide]
  norm_num

/-- A multiple of 5 is no power of two: from the power of two below it, it is at least 1 away. -/
theorem two_zpow_add_one_le {n : ℕ} {k : ℤ} (hn : 5 ∣ n) (hlo : (2 : ℚ) ^ k ≤ n) (hhi : (n : ℚ) < 2 ^ (k + 1)) :
    (2 : ℚ) ^ k + 1 ≤ n := by
  rcases Nat.eq_zero_or_pos n with rfl | hpos
  · exact absurd hlo (not_le.mpr (by rw [Nat.cast_zero]; positivity))
  · have hk : 0 ≤ k := by
      by_contra! hneg
      have hone : (2 : ℚ) ^ (k + 1) ≤ 1 := zpow_le_one_of_nonpos₀ one_le_two (by omega)
      have hn1 : (1 : ℚ) ≤ n := by exact_mod_cast hpos
      linarith
    obtain ⟨j, rfl⟩ := Int.eq_ofNat_of_zero_le hk
    rw [zpow_natCast] at hlo ⊢
    have hle : 2 ^ j ≤ n := by exact_mod_cast hlo
    have hne : 2 ^ j ≠ n := by
      rintro rfl
      have h52 : 5 ∣ 2 := Nat.Prime.dvd_of_dvd_pow (by norm_num) hn
      omega
    exact_mod_cast Nat.succ_le_of_lt (lt_of_le_of_ne hle hne)

/-- A multiple of 5 that is exact in binary64 is also the rounding of the numbers just below it: those off by a relative
2^-54 at most. -/
theorem RoundsTo.of_near {n : ℕ} {x : ℚ} {e : ℤ} {q : ℕ} (h : RoundsTo n e q) (hexact : (q : ℚ) * 2 ^ e = n)
    (hn : 5 ∣ n) (hsmall : n ≤ 2 ^ 53) (hle : x ≤ n) (hnear : n - x ≤ n / 2 ^ 54) : RoundsTo x e q := by
  have he : (0 : ℚ) < 2 ^ e := by positivity
  have hhalf : |(q : ℚ) - x / 2 ^ e| < 1 / 2 := by
    have hq : (q : ℚ) - x / 2 ^ e = (n - x) / 2 ^ e := by rw [← hexact]; field_simp
    rw [hq, abs_of_nonneg (by have := sub_nonneg.mpr hle; positivity), div_lt_iff₀ he]
    linarith [h.upper]
  refine ⟨h.least, hhalf.le, fun heq => absurd heq hhalf.ne, hle.trans_lt h.upper, h.lower.imp_right fun hlower => ?_⟩
  have hstep : ∀ j : ℕ, (2 : ℚ) ^ j * 2 ^ e = 2 ^ ((j : ℤ) + e) := fun j => by
    rw [zpow_add₀ two_ne_zero, zpow_natCast]
  have hgap := two_zpow_add_one_le (k := (52 : ℕ) + e) hn (by rwa [← hstep]) (by
    rw [show ((52 : ℕ) : ℤ) + e + 1 = (53 : ℕ) + e by push_cast; ring, ← hstep]; exact h.upper)
  have hsmall' : (n : ℚ) ≤ 2 ^ 53 := by exact_mod_cast hsmall
  rw [hstep]
  linarith

/-- Settles O40: the quotient is just below ten times the sample, which is exact. -/
theorem defaultCurrentIsTenfold : Obligations.DefaultCurrentIsTenfold := by
  intro s hlo hhi
  show current defaultParams.shuntR s = f64OfInt (10 * s)
  have hs : |s| ≤ 2 ^ 15 := abs_le.mpr (by omega)
  obtain ⟨e, q, hround, hten⟩ := f64OfInt_rounded (10 * s)
  have hcurrent := current_rounded shuntROk_default hs
  rw [defaultShuntR_value] at hcurrent
  rw [← Int.cast_abs, Int.abs_eq_natAbs, Int.cast_natCast] at hround hcurrent
  have hsmall : (10 * s).natAbs < 2 ^ 53 := by rw [abs_le] at hs; omega
  have hexact : (q : ℚ) * 2 ^ e = (10 * s).natAbs := hround.eq_of_dyadic (dyadic_natCast hsmall)
  have hten_natAbs : ((10 * s).natAbs : ℚ) = 10 * s.natAbs := by rw [Int.natAbs_mul]; norm_num
  have hround' := hround.of_near (x := s.natAbs / (7205759403792794 / 2 ^ 56)) hexact
    (by omega) hsmall.le (by rw [hten_natAbs]; linarith)
    (by rw [hten_natAbs]; linarith)
  rw [hten, hcurrent.eq_of_roundsTo hround', decide_eq_decide.mpr (show 10 * s < 0 ↔ s < 0 by omega)]

end Sys2Proof.Proofs
end
